-- ==== Sys2Proof/Word.lean ====
section
/-! DEFINITION. The word types of the Gray-code decoder block (R6: every value is an unsigned integer of a stated width, bit 0
least significant). A quantity whose width is a parameter of R5 (a line identifier, R41; an analog reading or a threshold, R44; a
count operand, R64; a request word, R61) is a Nat, and its bound is said where the parameters are known (WellFormed.lean,
Safety.lean). -/

namespace Sys2Proof

/-- A `MAXBITS`-bit quantity: raw sample, decoded value, response value field (R5, R46). -/
abbrev Value := BitVec 8

/-- The result of a digital read: 1 is high, 0 is low (R43). -/
abbrev Level := BitVec 1

/-- The response word, `W_RSP` bits (R66). -/
abbrev RspWord := BitVec 9

/-- A byte of the layout in which a request word is handed to the decoder. -/
abbrev Byte := BitVec 8

end Sys2Proof
end

