-- ==== Sys2Proof/Config.lean ====
section
/-! DEFINITION. The parameters of rule R5 and the free values of the model. -/

namespace Sys2Proof.Config

/-- `MAXBITS`: width of the raw sample and of the decoded value, number of line slots. R5: "not meant to be varied" (log
entry 3). -/
abbrev maxBits : Nat := 8

/-- `MAXLINES`: the largest accepted line count (R5). -/
abbrev maxLines : Nat := maxBits - 1

/-- `W_RSP = MAXBITS + 1` (R5, R66). -/
abbrev rspBits : Nat := maxBits + 1

/-- The width parameters of R5, each with its default. -/
structure Widths where
  /-- `ADC_BITS`: width of an analog reading and of a threshold; full scale is `2^ADC_BITS` counts (decision D16). -/
  adcBits : Nat := 10
  /-- `LINE_ID_BITS`: width of a line identifier (decision D7). -/
  lineIdBits : Nat := 8
  /-- `COUNT_BITS`: width of the count field of a CONFIGURE request (decision D8). -/
  countBits : Nat := 4
  deriving DecidableEq, Repr

/-- The parameters of R5 with their defaults. A block is built with them and no step changes them; State carries them so
that a claim over every state is a claim over every choice of them (log entry 2). -/
structure Params where
  /-- `ADC_BITS`, `LINE_ID_BITS`, `COUNT_BITS`. -/
  widths : Widths := {}
  /-- `SENTINEL`: what GETVALUE returns in the error state (R112, decision D20). -/
  sentinel : Value := 42
  /-- `THRESHOLD_DEFAULT`: the threshold of an analog line when the platform gives none (R5, decision D16). -/
  thresholdDefault : Nat := 977
  /-- `PLATFORM_KIND` as data: the identifiers the platform says are analog-capable, each with its threshold, or with
  none (R5, R54). An identifier that is not listed is a digital line; the default lists nothing. -/
  analogLines : List (Nat × Option Nat) := []
  deriving DecidableEq, Repr

/-- FREE VALUE. What the environment answers to the n-th line read since the start when that read is a digital one and
State.answers scripts no answer for it (R47, U5: any value of the read's width; log entry 4). -/
opaque freeDigital : Nat → Level

/-- FREE VALUE. The same for an analog read; of the number only the low `ADC_BITS` bits are read (R47, U5; log entry 4). -/
opaque freeAnalog : Nat → Nat

/-- FREE VALUE. What the n-th accepted CONFIGURE since the start leaves in the threshold field of a slot, the i-th, whose
line is digital; of the number only the low `ADC_BITS` bits are stored. PLATFORM_KIND gives such a line no threshold, and
the field is unused (R24; log entry 5). -/
opaque freeThreshold : Nat → Nat → Nat

end Sys2Proof.Config
end

