-- ==== Sys2Proof/Syntax.lean ====
section
/-! DEFINITION. The four host operations (R60), which take the place of instructions, and their textual form (R72). -/

namespace Sys2Proof

/-- The host operations, one constructor per row of the operation table (R60, R63). -/
inductive Instr where
  /-- CONFIGURE: format C, `op = 0b00`; `lines[i]` is the operand `line_i` (R64, R80). That `count` and the
  identifiers fit the widths of their fields is Instr.wf. -/
  | configure (count : Nat) (lines : Vector Nat 8) (invert : BitVec 1)
  /-- SAMPLE: format Z, `op = 0b01` (R67, R85). -/
  | sample
  /-- TOBINARY: format T, `op = 0b10` (R65, R100). -/
  | tobinary (gray : Value) (bw : BitVec 4)
  /-- GETVALUE: format Z, `op = 0b11` (R67, R110). -/
  | getvalue
  deriving DecidableEq, Repr

/-- The three request formats (R61). -/
inductive Format where
  | c
  | t
  | z
  deriving DecidableEq, Repr

/-- The format of an operation's request word (R63). -/
def Instr.format : Instr → Format
  | .configure _ _ _ => .c
  | .sample => .z
  | .tobinary _ _ => .t
  | .getvalue => .z

/-- An operation as R72 writes it, before its operands are given a width. -/
inductive OpText where
  /-- `CONFIGURE count, [id0, id1, ...], invert` -/
  | configure (count : Nat) (ids : List Nat) (invert : Nat)
  /-- `SAMPLE` -/
  | sample
  /-- `TOBINARY gray, bw` -/
  | tobinary (gray bw : Nat)
  /-- `GETVALUE` -/
  | getvalue
  deriving DecidableEq, Repr

end Sys2Proof
end

