-- ==== Sys2Proof/WellFormed.lean ====
section
/-! DEFINITION. Which parameters a block can have (R5), which terms stand for an operation (R62, R68, R72), and
what the host owes when it issues one (R144). -/

namespace Sys2Proof

/-- The widths are ones R5 and R62 allow: `COUNT_BITS` at least 4, so that the rejected counts can be presented, the other
two at least 1. -/
def Config.Widths.legal (c : Config.Widths) : Bool :=
  decide (4 ≤ c.countBits) && decide (1 ≤ c.lineIdBits) && decide (1 ≤ c.adcBits)

/-- An entry of PLATFORM_KIND fits: the identifier in `LINE_ID_BITS` bits, its threshold, if any, in `ADC_BITS` (R5, R24). -/
def Config.Widths.fitsEntry (c : Config.Widths) (e : Nat × Option Nat) : Bool :=
  decide (e.1 < 2 ^ c.lineIdBits) && decide (e.2.getD 0 < 2 ^ c.adcBits)

/-- Parameters a block can be built with: legal widths, and every identifier and threshold of the width R5 gives it. -/
def Config.Params.wf (p : Config.Params) : Bool :=
  p.widths.legal && decide (p.thresholdDefault < 2 ^ p.widths.adcBits) && p.analogLines.all p.widths.fitsEntry

/-- An operation stands for a request of a block with these widths: its count and its identifiers fit their fields (R62).
Nothing else is asked: there is no illegal, reserved or hint encoding, no identifier is checked, and a count of 8 or more is
the defined cause of the configuration error (R48, R64, R68). The other operands' types hold exactly the values of their
fields. -/
def Instr.wf (c : Config.Widths) : Instr → Bool
  | .configure count lines _ =>
    decide (count < 2 ^ c.countBits) && lines.toList.all (fun id => decide (id < 2 ^ c.lineIdBits))
  | .sample => true
  | .tobinary _ _ => true
  | .getvalue => true

/-- The text of a CONFIGURE stands for a request: `count` and `invert` fit their fields, every identifier fits, the list has
at most eight of them, and at least `count` of them unless `count >= 8` (R72, R62). -/
def OpText.wfConfigure (c : Config.Widths) (count : Nat) (ids : List Nat) (invert : Nat) : Bool :=
  decide (count < 2 ^ c.countBits) && decide (invert < 2)
    && decide (ids.length ≤ Config.maxBits) && ids.all (fun id => decide (id < 2 ^ c.lineIdBits))
    && (decide (Config.maxBits ≤ count) || decide (count ≤ ids.length))

/-- The text of a TOBINARY stands for a request: `gray` and `bw` fit their fields (R65, R72). -/
def OpText.wfTobinary (gray bw : Nat) : Bool :=
  decide (gray < 2 ^ Config.maxBits) && decide (bw < 2 ^ 4)

/-- Which texts stand for a request (R72). -/
def OpText.wf (c : Config.Widths) : OpText → Bool
  | .configure count ids invert => OpText.wfConfigure c count ids invert
  | .sample => true
  | .tobinary gray bw => OpText.wfTobinary gray bw
  | .getvalue => true

/-- What the host owes in an operation's operands: a CONFIGURE with a count from 1 to 7 whose configured identifiers are
distinct (R144). The block checks none of it but the upper bound; this is a premise a claim may take, never a check. -/
def Instr.hostDuty : Instr → Bool
  | .configure count lines _ =>
    decide (1 ≤ count) && decide (count ≤ Config.maxLines) && decide (lines.toList.take count).Nodup
  | .sample => true
  | .tobinary _ _ => true
  | .getvalue => true

end Sys2Proof
end

