-- ==== Sys2Proof/Decode.lean ====
section
/-! DEFINITION. Request words to operations and back (R61 to R68, R70), the layout of a request word in bytes, and the
assembly of R72's texts. `c` is the block's widths throughout, `C = COUNT_BITS` and `L = LINE_ID_BITS`. -/

namespace Sys2Proof

/-- `W_REQ = 3 + COUNT_BITS + MAXBITS * LINE_ID_BITS` (R5, R62). -/
def Config.Widths.reqBits (c : Config.Widths) : Nat :=
  3 + c.countBits + Config.maxBits * c.lineIdBits

/-- The field of `len` bits whose lowest bit is bit `lo` of the request word: unsigned, no scaling, no offset (R6, R62,
R70). -/
def ReqWord.field (w lo len : Nat) : Nat :=
  (w >>> lo) % 2 ^ len

/-- Field `op`, bits `[1:0]` (R63). -/
def ReqWord.op (w : Nat) : BitVec 2 := BitVec.ofNat 2 (ReqWord.field w 0 2)

/-- Field `invert`, bit `[2]` (R62). -/
def ReqWord.invert (w : Nat) : BitVec 1 := BitVec.ofNat 1 (ReqWord.field w 2 1)

/-- Field `count`, bits `[2+C : 3]` (R62). -/
def ReqWord.count (c : Config.Widths) (w : Nat) : Nat := ReqWord.field w 3 c.countBits

/-- Field `line_i`, bits `[2+C+L*(i+1) : 3+C+L*i]` (R62). -/
def ReqWord.line (c : Config.Widths) (w i : Nat) : Nat :=
  ReqWord.field w (3 + c.countBits + c.lineIdBits * i) c.lineIdBits

/-- The eight `line_i` fields in order (R62). -/
def ReqWord.lines (c : Config.Widths) (w : Nat) : Vector Nat 8 :=
  Vector.ofFn fun i => ReqWord.line c w i.val

/-- Field `gray`, bits `[MAXBITS+1 : 2]` (R62). -/
def ReqWord.gray (w : Nat) : Value := BitVec.ofNat 8 (ReqWord.field w 2 Config.maxBits)

/-- Field `bw`, bits `[MAXBITS+5 : MAXBITS+2]` (R62). -/
def ReqWord.bw (w : Nat) : BitVec 4 := BitVec.ofNat 4 (ReqWord.field w (Config.maxBits + 2) 4)

/-- The operation a request word stands for. Total: all four codes of `op` are used and no word is illegal; the bits a
format does not use are not looked at (R63, R67, R68). -/
def decodeRequest (c : Config.Widths) (w : Nat) : Instr :=
  if ReqWord.op w = 0b00#2 then .configure (ReqWord.count c w) (ReqWord.lines c w) (ReqWord.invert w)
  else if ReqWord.op w = 0b01#2 then .sample
  else if ReqWord.op w = 0b10#2 then .tobinary (ReqWord.gray w) (ReqWord.bw w)
  else .getvalue

/-- The code of an operation in field `op` (R63). -/
def Instr.opCode : Instr → BitVec 2
  | .configure _ _ _ => 0b00#2
  | .sample => 0b01#2
  | .tobinary _ _ => 0b10#2
  | .getvalue => 0b11#2

/-- Fields put side by side, each a width and a value, the first in the lowest bits (R6). -/
def packFields : List (Nat × Nat) → Nat
  | [] => 0
  | (len, v) :: rest => v % 2 ^ len + 2 ^ len * packFields rest

/-- The fields of an operation's request word after `op`, lowest first, each with its width (R62, R63). -/
def Instr.operandFields (c : Config.Widths) : Instr → List (Nat × Nat)
  | .configure count lines invert =>
    (1, invert.toNat) :: (c.countBits, count) :: lines.toList.map fun id => (c.lineIdBits, id)
  | .sample => []
  | .tobinary gray bw => [(Config.maxBits, gray.toNat), (4, bw.toNat)]
  | .getvalue => []

/-- The request word of an operation, its unused bits 0 (R62, R63). -/
def encode (c : Config.Widths) (i : Instr) : Nat :=
  packFields ((2, i.opCode.toNat) :: i.operandFields c)

/-- How many of the low bits of a request word its format uses; every other bit is ignored (R62, R67, R68, U8). -/
def ReqWord.usedWidth (c : Config.Widths) (w : Nat) : Nat :=
  if ReqWord.op w = 0b00#2 then c.reqBits
  else if ReqWord.op w = 0b10#2 then Config.maxBits + 6
  else 2

/-- Why a string of bytes is not a request word. -/
inductive DecodeError where
  /-- Fewer bytes than a request word takes. -/
  | tooShort
  /-- More bytes than a request word takes. -/
  | tooLong
  deriving DecidableEq, Repr

/-- How many bytes a request word takes: nine at the defaults. -/
def Config.Widths.reqBytes (c : Config.Widths) : Nat :=
  (c.reqBits + 7) / 8

/-- The number that bytes stand for, least significant first. -/
def natOfBytes : List Byte → Nat
  | [] => 0
  | b :: rest => b.toNat + 256 * natOfBytes rest

/-- The low `n` bytes of a number, least significant first. -/
def bytesOfNat : Nat → Nat → List Byte
  | 0, _ => []
  | n + 1, w => BitVec.ofNat 8 w :: bytesOfNat n (w / 256)

/-- A request word laid out in bytes, the first byte its bits `[7:0]`. The spec has no bytes: this is the numbering of
spec/opcode_table.json, and the bits of the last byte at `W_REQ` and above are wired to nothing (log entry 9). -/
def wordOfBytes (c : Config.Widths) (bytes : List Byte) : Except DecodeError Nat :=
  if bytes.length < c.reqBytes then .error .tooShort
  else if c.reqBytes < bytes.length then .error .tooLong
  else .ok (natOfBytes bytes % 2 ^ c.reqBits)

/-- The operation that a string of bytes stands for, or the reason it is not one request word. -/
def decode (c : Config.Widths) (bytes : List Byte) : Except DecodeError Instr :=
  (wordOfBytes c bytes).map (decodeRequest c)

/-- A table word (bits `w`, of which `nbits` are given and the rest are 0) as the bytes handed to the decoder. -/
def tableWordBytes (c : Config.Widths) (nbits w : Nat) : List Byte :=
  bytesOfNat c.reqBytes (w % 2 ^ nbits)

/-- The operation the decoder reads from a table word. The table's rows are at the default widths (log entry 9). -/
def decodeTableWord (nbits w : Nat) : Option Instr :=
  (decode {} (tableWordBytes {} nbits w)).toOption

/-- The operand `line_i` of a text: a missing one is encoded as 0 (R72). -/
def OpText.lineOperand (ids : List Nat) (i : Nat) : Nat :=
  ids.getD i 0

/-- The eight `line_i` operands of a text's list (R72). -/
def OpText.lineOperands (ids : List Nat) : Vector Nat 8 :=
  Vector.ofFn fun i => OpText.lineOperand ids i.val

/-- The operation a text stands for, none if its operands do not fit (R72). -/
def OpText.assemble (c : Config.Widths) (t : OpText) : Option Instr :=
  if t.wf c then
    match t with
    | .configure count ids invert => some (.configure count (OpText.lineOperands ids) (BitVec.ofNat 1 invert))
    | .sample => some .sample
    | .tobinary gray bw => some (.tobinary (BitVec.ofNat 8 gray) (BitVec.ofNat 4 bw))
    | .getvalue => some .getvalue
  else none

end Sys2Proof
end

