-- ==== Sys2Proof/Machine/State.lean ====
section
/-! DEFINITION. The state of the block (R20 to R25), its outputs (R12, R66, R69), the environment that answers it, and
its state after reset (R33). -/

namespace Sys2Proof.Machine

/-- A line's capability variant as one bit, as a LineSetup presents it: 0 = DigitalLine, 1 = ThresholdAnalogLine (R24,
R71). -/
inductive LineKind where
  | digitalLine
  | thresholdAnalogLine
  deriving DecidableEq, Repr

/-- A line's capability variant as PLATFORM_KIND answers it: `DigitalLine` or `ThresholdAnalogLine(threshold)` (R5). -/
inductive Capability where
  | digitalLine
  | thresholdAnalogLine (threshold : Nat)
  deriving DecidableEq, Repr

/-- One slot of the line table, `LINE[i]` (R24). -/
structure LineSlot where
  /-- `LINE[i].id`, `LINE_ID_BITS` bits -/
  id : Nat
  /-- `LINE[i].kind`, 1 bit -/
  kind : LineKind
  /-- `LINE[i].threshold`, `ADC_BITS` bits; unused when the kind is DigitalLine (log entry 5) -/
  threshold : Nat
  deriving DecidableEq, Repr

/-- One line transaction, with its result where it has one (R12, R43, R44, R45). -/
inductive LineTxn where
  /-- `LineSetup(id, kind)` -/
  | setup (id : Nat) (kind : LineKind)
  /-- `MemRead(id, 1)` and its result -/
  | readDigital (id : Nat) (result : Level)
  /-- `MemRead(id, ADC_BITS)` and its result -/
  | readAnalog (id : Nat) (result : Nat)
  deriving DecidableEq, Repr

/-- What the environment answers to one line read: the read takes the part of its own kind (R43, R44, R47), of an analog
answer the low `ADC_BITS` bits (log entry 4). -/
structure LineAnswer where
  digital : Level
  analog : Nat
  deriving DecidableEq, Repr

/-- The ways a host can break the one-at-a-time protocol of R69 (U6). -/
inductive Breach where
  /-- A request while an earlier one has not been answered. -/
  | requestWhileBusy (w : Nat)
  /-- A request while reset is asserted. -/
  | requestDuringReset (w : Nat)
  /-- Reset asserted during an operation. -/
  | resetDuringOperation (w : Nat)
  deriving DecidableEq, Repr

/-- What the host does next at the ports of R69. -/
inductive HostEvent where
  /-- `req_valid` with a request word on `req`. -/
  | request (w : Nat)
  /-- `rst` asserted and released with no operation outstanding (R140, R141). -/
  | rst
  /-- A breach of the protocol, to which the spec gives no meaning (R69, R141, U6). -/
  | breach (b : Breach)
  deriving DecidableEq, Repr

/-- The machine: the block with everything it retains, what it has just put out, and the environment it acts in. -/
structure State where
  /-- R21: construction has taken place since reset. -/
  constructed : Bool
  /-- R22: the error flag. -/
  err : Bool
  /-- R23: the number of configured lines. -/
  count : BitVec 3
  /-- R24: the line table `LINE[0 .. MAXBITS-1]`. -/
  line : Vector LineSlot 8
  /-- R25: the inversion flag, stored and read by nothing. -/
  invert : BitVec 1
  /-- `rsp_valid` and `rsp` of R69: the response word the step just taken presented, none if it presented none. -/
  rsp : Option RspWord
  /-- R12: the line-side trace of the step just taken, in the order performed. -/
  trace : List LineTxn
  /-- THE MODEL'S OWN: which slots a CONFIGURE has written since reset. Read by nothing; it lets invariant 5 of R35 be
  said (log entry 1). -/
  written : Vector Bool 8
  /-- The parameters of R5 the block was built with; written by nothing (log entry 2). -/
  params : Config.Params
  /-- The host's side of R69: what it presents from now on, the next first. Its position takes the place of a program
  counter (R31). -/
  host : List HostEvent
  /-- The platform's side of R42: its answers to the next line reads, one per read, the next first (R47; log entry 4). -/
  answers : List LineAnswer
  /-- THE MODEL'S OWN: how many line reads there have been, so that a read past the end of `answers` takes a fresh free
  value (log entry 4). -/
  draws : Nat
  /-- THE MODEL'S OWN: how many CONFIGUREs have been accepted, so that each leaves fresh free values in the threshold fields
  of its digital slots (log entry 5). -/
  configurations : Nat
  deriving DecidableEq, Repr

/-- Why the machine stops with a fault. It never does: the block has one error, and that error is the state bit `err` and
not a trap (R121); a line read cannot fail (R47, R123); no request word is illegal (R68). Hence no constructor. -/
inductive Fault where
  deriving DecidableEq, Repr

/-- Why a step has no meaning. -/
inductive Refusal where
  /-- Raised by an arm of exec for an operation that has no meaning yet. Safe. No arm raises it. -/
  | notModelled (mnemonic : String)
  /-- Raised by step when the host breaks the protocol of R69: "this spec gives it no meaning" (R69, R141, U6). Safe: no
  claim about a next state holds or fails of such a run (log entry 7). -/
  | hostProtocolBreach (b : Breach)
  deriving DecidableEq, Repr

/-- What a line slot holds after reset: the spec leaves it unspecified, and no rule reads it (R24, R33; DESIGN CHOICE,
log entry 1). -/
def LineSlot.atReset : LineSlot := ⟨0, .digitalLine, 0⟩

/-- The machine right after reset (R33, R140, R141): the phase UNCONSTRUCTED, no response pending, no line transaction in
progress; the parameters at the defaults of R5; a host that has presented nothing yet, and an environment with nothing
scripted (log entries 1, 2, 4, 5, 8). -/
def State.reset : State where
  constructed := false
  err := false
  count := 0
  line := Vector.replicate 8 LineSlot.atReset
  invert := 0
  rsp := none
  trace := []
  written := Vector.replicate 8 false
  params := {}
  host := []
  answers := []
  draws := 0
  configurations := 0

end Sys2Proof.Machine
end

