-- ==== Sys2Proof/Machine/Flags.lean ====
section
/-! DEFINITION. The one-bit results: when a reading is active (R88, R89), the flag `err` in a response word (R66), the
lifecycle phase that `constructed` and `err` give (R130). -/

namespace Sys2Proof.Machine

/-- A digital line is active exactly when the read returns high; nothing is inverted (R88). -/
def digitalActive (rd : Level) : Bool :=
  decide (rd = 1)

/-- An analog line is active exactly when the reading is strictly greater than the threshold, both unsigned (R89; log
entry 6). -/
def analogActive (threshold rd : Nat) : Bool :=
  decide (threshold < rd)

/-- The response word: `value` in bits `[7:0]`, `err` in bit `[8]` (R66). -/
def responseWord (value : Value) (err : Bool) : RspWord :=
  BitVec.ofBool err ++ value

/-- Field `value` of a response word (R66). -/
def rspValue (r : RspWord) : Value :=
  r.extractLsb' 0 8

/-- Field `err` of a response word (R66). -/
def rspErr (r : RspWord) : Bool :=
  r.getLsbD 8

/-- The lifecycle phases (R130). -/
inductive Phase where
  | unconstructed
  | ready
  | error
  deriving DecidableEq, Repr

/-- The phase of a state; none for the combination `constructed = 0`, `err = 1`, which never occurs (R130). -/
def phase (s : State) : Option Phase :=
  match s.constructed, s.err with
  | false, false => some .unconstructed
  | true, false => some .ready
  | true, true => some .error
  | false, true => none

end Sys2Proof.Machine
end

