-- ==== Sys2Proof/Machine/Operands.lean ====
section
/-! DEFINITION. What the operands of a CONFIGURE resolve to: a line's capability variant (R5, R54, R82), the slots a count
names (R51), the count as state (R82). -/

namespace Sys2Proof.Machine

/-- The platform function `PLATFORM_KIND(id)` (R5): analog, with the platform's threshold or else `THRESHOLD_DEFAULT`, for
the identifiers the platform lists; digital for every other. -/
def platformKind (p : Config.Params) (id : Nat) : Capability :=
  match p.analogLines.lookup id with
  | some (some threshold) => .thresholdAnalogLine threshold
  | some none => .thresholdAnalogLine p.thresholdDefault
  | none => .digitalLine

/-- The variant without its threshold: what a LineSetup presents (R45). -/
def capabilityKind : Capability → LineKind
  | .digitalLine => .digitalLine
  | .thresholdAnalogLine _ => .thresholdAnalogLine

/-- The threshold that comes with a variant, if one does (R5). -/
def capabilityThreshold : Capability → Option Nat
  | .digitalLine => none
  | .thresholdAnalogLine threshold => some threshold

/-- The one-bit code of a variant (R24, R71). -/
def lineKindCode : LineKind → BitVec 1
  | .digitalLine => 0
  | .thresholdAnalogLine => 1

/-- A slot's content for a configured identifier: kind and threshold are resolved now, once (R24, R82). A digital line has
no threshold to store: its field takes `unused` (log entry 5). -/
def resolveSlot (p : Config.Params) (id : Nat) (unused : Nat) : LineSlot :=
  ⟨id, capabilityKind (platformKind p id), (capabilityThreshold (platformKind p id)).getD unused⟩

/-- The slots a count of `n` names, in increasing order: `i = 0 to n - 1` (R51, R82, R87). -/
def slotsBelow (n : Nat) : List (Fin 8) :=
  (List.finRange 8).filter fun i => decide (i.val < n)

/-- The count check: rejected exactly when the operand is at least `MAXBITS`, compared unsigned at its full field width
(R81). -/
def countRejected (count : Nat) : Bool :=
  decide (Config.maxBits ≤ count)

/-- `count[2:0]`, what an accepted CONFIGURE stores (R80). -/
def storedCount (count : Nat) : BitVec 3 :=
  BitVec.ofNat 3 count

end Sys2Proof.Machine
end

