-- ==== Sys2Proof/Machine/Ops.lean ====
section
/-! DEFINITION. The operations the meanings share: the host's side (taking an event, responding, reset), the line
transactions (R43 to R45), the sampling procedure (R87), the Gray-to-binary conversion (R101), and the one error (R122). -/

namespace Sys2Proof.Machine

/-! ### The host's side (R69) -/

/-- The block has taken the host's next event. -/
def takeEvent (s : State) : State :=
  { s with host := s.host.tail }

/-- The host presents one more request, before anything else it has in store. -/
def presentRequest (w : Nat) (s : State) : State :=
  { s with host := .request w :: s.host }

/-- A table word as a request word; a string of bytes that is none is not presented at all. -/
def presentTableWord (nbits w : Nat) (s : State) : State :=
  match wordOfBytes s.params.widths (tableWordBytes s.params.widths nbits w) with
  | .ok r => presentRequest r s
  | .error _ => s

/-- An operation begins: the response and the trace of the one before are gone. -/
def beginOperation (s : State) : State :=
  { s with rsp := none, trace := [] }

/-- `respond(value, err)`: the operation ends with a response whose bit `err` is the flag as it is now (R8, R66). -/
def respond (value : Value) (s : State) : State :=
  { s with rsp := some (responseWord value s.err) }

/-- The host presents nothing: the block is idle and holds its state (R135, R145), and gives no response without a request
(R69). -/
def idle (s : State) : State :=
  beginOperation s

/-- Reset: every element of the block takes its reset value, no response is pending, no line transaction is issued
(R140 to R142). The parameters, the platform and what the host does next are not the block's. -/
def assertRst (s : State) : State :=
  { State.reset with
    params := s.params
    host := s.host
    answers := s.answers
    draws := s.draws
    configurations := s.configurations }

/-! ### Line transactions (R42) -/

/-- A line transaction takes its place in the trace (R12, R50). -/
def issue (t : LineTxn) (s : State) : State :=
  { s with trace := s.trace ++ [t] }

/-- An answer as the block takes it in: an analog read has `ADC_BITS` wires (R44, R71). -/
def onWires (c : Config.Widths) (a : LineAnswer) : LineAnswer :=
  ⟨a.digital, a.analog % 2 ^ c.adcBits⟩

/-- What the environment answers to the next read: the scripted answer, else a free value (R47; log entry 4). -/
def nextAnswer (s : State) : LineAnswer :=
  onWires s.params.widths <|
    match s.answers with
    | a :: _ => a
    | [] => ⟨Config.freeDigital s.draws, Config.freeAnalog s.draws⟩

/-- A read has been answered: no two reads share an answer (R47, R49). -/
def consumeAnswer (s : State) : State :=
  { s with answers := s.answers.tail, draws := s.draws + 1 }

/-- `MemRead(id, 1)` (R43). -/
def memReadDigital (id : Nat) (s : State) : Level × State :=
  ((nextAnswer s).digital, issue (.readDigital id (nextAnswer s).digital) (consumeAnswer s))

/-- `MemRead(id, ADC_BITS)` (R44). -/
def memReadAnalog (id : Nat) (s : State) : Nat × State :=
  ((nextAnswer s).analog, issue (.readAnalog id (nextAnswer s).analog) (consumeAnswer s))

/-- `LineSetup(id, kind)` (R45): what the platform does on it is the platform's (U11; log entry 10). -/
def lineSetup (id : Nat) (kind : LineKind) (s : State) : State :=
  issue (.setup id kind) s

/-! ### The sampling procedure (R87) -/

/-- One pass of the loop of R87 without the accumulator: read the slot's line by its variant, and say whether it is
active. -/
def readActive (slot : LineSlot) (s : State) : Bool × State :=
  match slot.kind with
  | .digitalLine =>
    let rd := memReadDigital slot.id s
    (digitalActive rd.1, rd.2)
  | .thresholdAnalogLine =>
    let rd := memReadAnalog slot.id s
    (analogActive slot.threshold rd.1, rd.2)

/-- `acc | (1 << i)` for an active reading, `acc` for an inactive one (R87). -/
def accumulate (acc : Value) (i : Nat) (active : Bool) : Value :=
  if active then acc ||| (1#8 <<< i) else acc

/-- The loop of R87 over the slots still to be read, with the working register `acc` (R27). -/
def sampleLoop : List (Fin 8) → Value → State → Value × State
  | [], acc, s => (acc, s)
  | i :: rest, acc, s =>
    let reading := readActive s.line[i] s
    sampleLoop rest (accumulate acc i.val reading.1) reading.2

/-- `Sample()`: the raw sample and the state after its reads. The accumulator starts at 0 (R87). -/
def sample (s : State) : Value × State :=
  sampleLoop (slotsBelow s.count.toNat) 0 s

/-! ### The conversion (R101) -/

/-- The loop of R101 with the working registers `num` and `mask` (R28). The first argument bounds the passes; at most
`MAXBITS` are ever made. -/
def toBinaryLoop : Nat → Value → Value → Value
  | 0, num, _ => num
  | n + 1, num, mask =>
    if mask = 0 then num
    else toBinaryLoop n (num ^^^ (mask >>> 1)) (mask >>> 1)

/-- `ToBinary(gray)` (R101). -/
def toBinary (gray : Value) : Value :=
  toBinaryLoop Config.maxBits gray gray

/-- How many passes the loop of R101 makes from a given `mask` (R101, R157). -/
def toBinaryPasses : Nat → Value → Nat
  | 0, _ => 0
  | n + 1, mask => if mask = 0 then 0 else toBinaryPasses n (mask >>> 1) + 1

/-- `ToGray(b) = b ^ (b >> 1)`: not an operation of the block, defined to state R107 (R73). -/
def toGray (b : Value) : Value :=
  b ^^^ (b >>> 1)

/-! ### The configuration and the one error -/

/-- Taking the ConfigurationError, which is what this block has for an exception (R120 to R124): `err` and `constructed`
become 1 and that is all; nothing is saved, no mode changes, control goes nowhere. There is no return from it (R125):
only `assertRst` ends it. -/
def takeConfigurationError (s : State) : State :=
  { s with constructed := true, err := true }

/-- An accepted first CONFIGURE stores the count and the inversion flag (R82). -/
def storeConfiguration (count : Nat) (invert : BitVec 1) (s : State) : State :=
  { s with
    constructed := true
    count := storedCount count
    invert := invert
    configurations := s.configurations + 1 }

/-- Write of one line slot (R24). -/
def writeSlot (i : Fin 8) (slot : LineSlot) (s : State) : State :=
  { s with line := s.line.set i slot, written := s.written.set i true }

/-- What the threshold field of slot `i` holds after this CONFIGURE if its line is digital: a free value of the field's width
(log entry 5). -/
def unusedThreshold (s : State) (i : Fin 8) : Nat :=
  Config.freeThreshold s.configurations i.val % 2 ^ s.params.widths.adcBits

/-- One pass of the loop of R80: resolve the variant, write the slot, issue the set-up. -/
def setUpSlot (i : Fin 8) (id : Nat) (s : State) : State :=
  lineSetup id (capabilityKind (platformKind s.params id)) 
    (writeSlot i (resolveSlot s.params id (unusedThreshold s i)) s)

/-- The loop of R80 over the slots still to be set up. -/
def setUpLoop (lines : Vector Nat 8) : List (Fin 8) → State → State
  | [], s => s
  | i :: rest, s => setUpLoop lines rest (setUpSlot i lines[i] s)

/-- The line set-ups of an accepted CONFIGURE, slot 0 first (R51, R82). -/
def setUpLines (count : Nat) (lines : Vector Nat 8) (s : State) : State :=
  setUpLoop lines (slotsBelow count) s

end Sys2Proof.Machine
end

