-- ==== Sys2Proof/Machine/BitSampler.lean ====
section
/-! DEFINITION. The meanings of CONFIGURE and SAMPLE (spec/40_bitsampler.md). -/

namespace Sys2Proof.Machine

/-- CONFIGURE (R80): the `constructed` test first, then the count test, then, only if accepted, the set-ups (R128). -/
def execConfigure (count : Nat) (lines : Vector Nat 8) (invert : BitVec 1) (s : State) :
    Host.Outcome State Fault Refusal :=
  if s.constructed then .next (respond 0 (beginOperation s))
  else if countRejected count then .next (respond 0 (takeConfigurationError (beginOperation s)))
  else .next (respond 0 (setUpLines count lines (storeConfiguration count invert (beginOperation s))))

/-- SAMPLE (R85): the `err` test comes before any line access (R86). -/
def execSample (s : State) : Host.Outcome State Fault Refusal :=
  if s.err then .next (respond 0 (beginOperation s))
  else
    let raw := sample (beginOperation s)
    .next (respond raw.1 raw.2)

end Sys2Proof.Machine
end

