-- ==== Sys2Proof/Machine/DecoderFacade.lean ====
section
/-! DEFINITION. The meaning of GETVALUE (spec/42_decoder_facade.md). -/

namespace Sys2Proof.Machine

/-- GETVALUE (R111): the sentinel and no line access in the error state (R112), else the whole raw sample converted. -/
def execGetvalue (s : State) : Host.Outcome State Fault Refusal :=
  if s.err then .next (respond s.params.sentinel (beginOperation s))
  else
    let raw := sample (beginOperation s)
    .next (respond (toBinary raw.1) raw.2)

end Sys2Proof.Machine
end

