-- ==== Sys2Proof/Machine/GrayCodeConverter.lean ====
section
/-! DEFINITION. The meaning of TOBINARY (spec/41_gray_converter.md). -/

namespace Sys2Proof.Machine

/-- TOBINARY (R100): pure and stateless in every phase; `bw` has no effect (R103). -/
def execTobinary (gray : Value) (_bw : BitVec 4) (s : State) : Host.Outcome State Fault Refusal :=
  .next (respond (toBinary gray) (beginOperation s))

end Sys2Proof.Machine
end

