-- ==== Sys2Proof/Machine/Dispatch.lean ====
section
/-! DEFINITION. One arm per host operation (R60). -/

namespace Sys2Proof.Machine

def exec (i : Instr) (s : State) : Host.Outcome State Fault Refusal :=
  match i with
  | .configure count lines invert => Sys2Proof.Machine.execConfigure count lines invert s
  | .sample => Sys2Proof.Machine.execSample s
  | .tobinary gray bw => Sys2Proof.Machine.execTobinary gray bw s
  | .getvalue => Sys2Proof.Machine.execGetvalue s

end Sys2Proof.Machine
end

