-- ==== Sys2Proof/Machine/Step.lean ====
section
/-! DEFINITION. One step: the block takes what the host does next and deals with it to completion (R9, R50, R69). -/

namespace Sys2Proof.Machine

/-- One step. A request is decoded and performed, with all its line transactions and its one response; `rst` resets; a
host that presents nothing leaves the block idle; a breach of the protocol has no meaning (R69, R140, R145, U6). -/
def step (s : State) : Host.Outcome State Fault Refusal :=
  match s.host with
  | [] => .next (idle s)
  | .request w :: _ => exec (decodeRequest s.params.widths w) (takeEvent s)
  | .rst :: _ => .next (assertRst (takeEvent s))
  | .breach b :: _ => .refused (.hostProtocolBreach b)

/-- The host presents the operation of a table word next: that is where step takes its next operation from (log entry 8). -/
def State.withFetchWord (s : State) (nbits w : Nat) : State :=
  presentTableWord nbits w s

end Sys2Proof.Machine
end

