-- ==== Sys2Proof/Safety.lean ====
section
/-! DEFINITION. What the claims speak of: the invariant of R35, the answers a state's reads will get, runs and their
line-side traces (R12, R145). -/

namespace Sys2Proof.Machine

/-- The answer that the k-th of the coming line reads will get (R47). -/
def answerAt (s : State) (k : Nat) : LineAnswer :=
  onWires s.params.widths <|
    match s.answers[k]? with
    | some a => a
    | none => ⟨Config.freeDigital (s.draws + k), Config.freeAnalog (s.draws + k)⟩

/-- Whether a slot read with a given answer is active (R88, R89). -/
def slotActive (slot : LineSlot) (a : LineAnswer) : Bool :=
  match slot.kind with
  | .digitalLine => digitalActive a.digital
  | .thresholdAnalogLine => analogActive slot.threshold a.analog

/-- The transaction that reading a slot with a given answer leaves in the trace (R12, R43, R44). -/
def slotRead (slot : LineSlot) (a : LineAnswer) : LineTxn :=
  match slot.kind with
  | .digitalLine => .readDigital slot.id a.digital
  | .thresholdAnalogLine => .readAnalog slot.id a.analog

/-- The reads of one sampling procedure: slot 0 first, up to slot count-1, the k-th with the k-th coming answer (R51). -/
def samplingTrace (s : State) : List LineTxn :=
  ((List.finRange 8).take s.count.toNat).map fun i => slotRead s.line[i] (answerAt s i.val)

/-- What one sampling procedure takes from the environment: one answer per configured line (R49, R51). -/
def afterReads (s : State) : State :=
  { s with answers := s.answers.drop s.count.toNat, draws := s.draws + s.count.toNat }

/-- A value is the raw sample of a state: bit i is set exactly when slot i is configured and the i-th read is active
(R87, R90). -/
def IsRawSample (s : State) (raw : Value) : Prop :=
  ∀ i : Fin 8, raw.getLsbD i.val = (decide (i.val < s.count.toNat) && slotActive s.line[i] (answerAt s i.val))

/-- Two slots are the same to every read: same identifier, same kind, and the same threshold if the line is analog (R24). -/
def SameToReads (a b : LineSlot) : Prop :=
  a.id = b.id ∧ a.kind = b.kind ∧ (b.kind = .thresholdAnalogLine → a.threshold = b.threshold)

/-- The invariants of R35 that speak of one state, with what R24 adds (which slots have been written, what they
hold and how wide it is) and what R5 asks of the parameters. -/
structure BlockInv (s : State) : Prop where
  /-- R35.1 -/
  count_legal : s.count.toNat ≤ Config.maxLines
  /-- R35.2 -/
  err_constructed : s.err = true → s.constructed = true ∧ s.count = 0
  /-- R35.3 -/
  unconstructed_clear : s.constructed = false → s.err = false ∧ s.count = 0 ∧ s.invert = 0
  /-- R35.5 -/
  read_slots_written : ∀ i : Fin 8, i.val < s.count.toNat → s.written[i] = true
  /-- R24: slots at index `count` and above, slot 7 among them, are not written. -/
  other_slots_unwritten : ∀ i : Fin 8, s.count.toNat ≤ i.val → s.written[i] = false
  /-- R24, R82: a written slot holds the kind the platform gives its identifier, and the threshold if it gives one. -/
  written_slots_resolved : ∀ i : Fin 8, s.written[i] = true →
    s.line[i].kind = capabilityKind (platformKind s.params s.line[i].id)
      ∧ ∀ threshold, platformKind s.params s.line[i].id = .thresholdAnalogLine threshold → s.line[i].threshold = threshold
  /-- R24: the fields of every slot are of their widths. -/
  slots_fit : ∀ i : Fin 8,
    s.line[i].id < 2 ^ s.params.widths.lineIdBits ∧ s.line[i].threshold < 2 ^ s.params.widths.adcBits
  /-- R5: the block was built with parameters it can have. -/
  params_wf : s.params.wf = true

/-- Two states hold the same configuration (R35.4) and the same parameters. -/
def SameConfiguration (s t : State) : Prop :=
  t.constructed = s.constructed ∧ t.err = s.err ∧ t.count = s.count ∧ t.invert = s.invert ∧ t.line = s.line
    ∧ t.written = s.written ∧ t.params = s.params

/-- The steps of a run, up to the first that has no next state (R145). -/
def runSteps : Nat → State → Host.Outcome State Fault Refusal
  | 0, s => .next s
  | n + 1, s =>
    match step s with
    | .next t => runSteps n t
    | .fault r => .fault r
    | .refused r => .refused r

/-- The line-side trace of the first `n` steps of a run (R12, R50). -/
def runTrace : Nat → State → List LineTxn
  | 0, _ => []
  | n + 1, s =>
    match step s with
    | .next t => t.trace ++ runTrace n t
    | .fault _ => []
    | .refused _ => []

/-- A sequence of operations performed one after another, whatever the host had in store. -/
def execAll : List Instr → State → Host.Outcome State Fault Refusal
  | [], s => .next s
  | i :: rest, s =>
    match exec i s with
    | .next t => execAll rest t
    | .fault r => .fault r
    | .refused r => .refused r

/-- The host only makes requests: no reset and no breach of the protocol among what it has in store. -/
def OnlyRequests (events : List HostEvent) : Prop :=
  ∀ e ∈ events, ∃ w, e = .request w

end Sys2Proof.Machine
end

