-- ==== Sys2Proof/Certificates/Slice0/Obligations.lean ====
section
/-! DEFINITION. The statements about the Gray-code decoder block. -/

open Sys2Proof Sys2Proof.Machine

/-! ### Encoding (30_encoding.md) -/

/-- R61 to R65, R68: at every choice of the widths, the request word of an operation is below `2^W_REQ`, and decoding it gives
the operation back with every operand; so does decoding the word as a table word of `W_REQ = 71` bits at the defaults. (The
layout is the spec's decision D12, the bytes are log entry 9.) -/
def Obligations.DecodeOfEncodeIsIdentity : Prop :=
  ∀ (c : Config.Widths) (i : Instr), c.legal = true → i.wf c = true →
    encode c i < 2 ^ c.reqBits ∧ decodeRequest c (encode c i) = i
      ∧ (c = {} → decodeTableWord 71 (encode c i) = some i)

/-- R62, R63, R67, R68: at every choice of the widths, encoding the operation a word decodes to gives the word's used bits back
and 0 in the others: `W_REQ` bits for a CONFIGURE, 14 for a TOBINARY, 2 for SAMPLE and GETVALUE. (The layout is the spec's
decision D12.) -/
def Obligations.EncodeOfDecodeKeepsTheUsedBits : Prop :=
  ∀ (c : Config.Widths) (w : Nat),
    encode c (decodeRequest c w) = w % 2 ^ ReqWord.usedWidth c w
      ∧ ReqWord.usedWidth c w
        = (if w % 4 = 0 then 3 + c.countBits + 8 * c.lineIdBits else if w % 4 = 2 then 14 else 2)

/-- R62, R63, R68, R70: the two low bits select the operation, and each operand is its slice of the word read as an
unsigned number, at every choice of `C = COUNT_BITS` and `L = LINE_ID_BITS`. (The layout is the spec's decision D12.) -/
def Obligations.OperandsAreUnsignedSlicesOfTheRequest : Prop :=
  ∀ (c : Config.Widths) (w : Nat),
    (w % 4 = 0 → ∃ count lines invert, decodeRequest c w = .configure count lines invert
      ∧ invert.toNat = w / 2 ^ 2 % 2 ∧ count = w / 2 ^ 3 % 2 ^ c.countBits
      ∧ ∀ i : Fin 8, lines[i] = w / 2 ^ (3 + c.countBits + c.lineIdBits * i.val) % 2 ^ c.lineIdBits)
    ∧ (w % 4 = 1 → decodeRequest c w = .sample)
    ∧ (w % 4 = 2 → ∃ gray bw, decodeRequest c w = .tobinary gray bw
      ∧ gray.toNat = w / 2 ^ 2 % 2 ^ 8 ∧ bw.toNat = w / 2 ^ 10 % 2 ^ 4)
    ∧ (w % 4 = 3 → decodeRequest c w = .getvalue)

/-- R67, R68, U8: the bits a format does not use are ignored: all but the two low ones for SAMPLE and GETVALUE, those above
`bw` for TOBINARY. (The layout is the spec's decision D12.) -/
def Obligations.UnusedRequestBitsAreIgnored : Prop :=
  ∀ (c : Config.Widths) (w w' : Nat),
    (w % 2 ^ ReqWord.usedWidth c w = w' % 2 ^ ReqWord.usedWidth c w → decodeRequest c w' = decodeRequest c w)
      ∧ (w % 4 = 1 → w' % 4 = 1 → decodeRequest c w = .sample ∧ decodeRequest c w' = .sample)
      ∧ (w % 4 = 3 → w' % 4 = 3 → decodeRequest c w = .getvalue ∧ decodeRequest c w' = .getvalue)

/-- R41, R64, R68: every request word decodes to an operation whose operands are of the widths of their fields. -/
def Obligations.DecodedOperationsAreWellFormed : Prop :=
  ∀ (c : Config.Widths) (w : Nat), (decodeRequest c w).wf c = true

/-- R62, R63 on words of 95_test_vectors.md section 2.5, and one at other widths: with `COUNT_BITS = 5`, `LINE_ID_BITS = 4`
the count is at `[7:3]` and `line_0`, `line_1`, `line_2` at `[11:8]`, `[15:12]`, `[19:16]`. -/
def Obligations.SpecRequestWordsDecode : Prop :=
  decodeRequest {} 0x686028220 = .configure 4 #v[4, 5, 12, 13, 0, 0, 0, 0] 0
    ∧ decodeRequest {} 0x202889C = .configure 3 #v[17, 5, 4, 0, 0, 0, 0, 0] 1
    ∧ decodeRequest {} 0xFD = .sample
    ∧ decodeRequest {} 0x3E02 = .tobinary 128 15
    ∧ decodeRequest {} 0x7FFFFFFFFFFFFFFFFF = .getvalue
    ∧ decodeRequest { countBits := 5, lineIdBits := 4 } 0x32118 = .configure 3 #v[1, 2, 3, 0, 0, 0, 0, 0] 0

/-- R66: a response word carries the value in bits 7 to 0 and `err` in bit 8, and nothing else. (The spec's decision
D6.) -/
def Obligations.ResponseWordHoldsValueAndErr : Prop :=
  ∀ (v : Value) (e : Bool),
    rspValue (responseWord v e) = v ∧ rspErr (responseWord v e) = e
      ∧ (responseWord v e).toNat = v.toNat + (if e then 256 else 0)

/-- R72: a well-formed CONFIGURE text assembles to a well-formed operation with its operands, a missing `line_i` being 0.
(The spec's decision D14; that a text of a count below 8 lists at least `count` identifiers is log entry 14.) -/
def Obligations.ConfigureTextAssembles : Prop :=
  ∀ (c : Config.Widths) (count : Nat) (ids : List Nat) (invert : Nat), (OpText.configure count ids invert).wf c = true →
    ∃ lines v, (OpText.configure count ids invert).assemble c = some (.configure count lines v)
      ∧ (Instr.configure count lines v).wf c = true ∧ v.toNat = invert ∧ ∀ i : Fin 8, lines[i] = ids.getD i.val 0

/-! ### The step (00_scope.md R9, 30_encoding.md R69, 70_reset_and_hazards.md) -/

/-- R9, R50, R69: a step on a request is the meaning of the operation its word decodes to, on the state whose host has
presented it. (The host as a queue in State is log entry 8.) -/
def Obligations.StepPerformsThePresentedRequest : Prop :=
  ∀ (s : State) (w : Nat) (rest : List HostEvent), s.host = .request w :: rest →
    step s = exec (decodeRequest s.params.widths w) { s with host := rest }

/-- R135, R145, U6: with nothing presented the block is idle, holds its state and responds to nothing; a breach of the
protocol has no meaning. (That the outputs of the last operation are gone after an idle step is log entry 12, the refusal
log entry 7.) -/
def Obligations.StepWithoutARequest : Prop :=
  (∀ s : State, s.host = [] → step s = .next { s with rsp := none, trace := [] })
    ∧ ∀ (s : State) (b : Breach) (rest : List HostEvent), s.host = .breach b :: rest →
      step s = .refused (.hostProtocolBreach b)

/-- R33, R140 to R142: reset clears `constructed`, `err`, `count` and `invert`, leaves no response pending and issues no
line transaction; the parameters and the environment are not the block's and stay. (The spec's decision D9; that `rst` is
one event between operations, and that the model's own counters `draws` and `configurations` go on over it, is log entry 13. What the line table then holds is not said: the spec leaves it open.) -/
def Obligations.ResetClearsTheBlock : Prop :=
  ∀ (s : State) (rest : List HostEvent), s.host = .rst :: rest →
    ∃ t, step s = .next t ∧ t.constructed = false ∧ t.err = false ∧ t.count = 0 ∧ t.invert = 0 ∧ t.rsp = none
      ∧ t.trace = [] ∧ t.host = rest ∧ t.params = s.params ∧ t.answers = s.answers ∧ t.draws = s.draws
      ∧ t.configurations = s.configurations

/-- R47, R66, R69, R114: every operation, in every state, completes with exactly one response whose bit `err` is the flag
after the operation, and touches neither the host's queue nor the parameters. -/
def Obligations.EveryOperationCompletesWithOneResponse : Prop :=
  ∀ (i : Instr) (s : State), ∃ t v, exec i s = .next t ∧ t.rsp = some (responseWord v t.err) ∧ t.host = s.host
    ∧ t.params = s.params

/-! ### The configuration error and the lifecycle (10_state.md R35, 60_exceptions.md) -/

/-- R5, R33, R35: the invariants hold after reset. -/
def Obligations.InvariantHoldsAfterReset : Prop :=
  BlockInv State.reset

/-- R35.1, R35.2, R35.3, R35.5, R24 of the slots and the widths of their fields, R5 of the parameters: every step keeps the
invariants. -/
def Obligations.EveryStepKeepsTheInvariant : Prop :=
  ∀ s t : State, BlockInv s → step s = .next t → BlockInv t

/-- R35.4: once constructed, nothing of the configuration changes in a step that is not a reset. -/
def Obligations.ConstructedConfigurationIsImmutable : Prop :=
  ∀ s t : State, s.constructed = true → (∀ rest, s.host ≠ .rst :: rest) → step s = .next t → SameConfiguration s t

/-- R130: READY and ERROR are left by no operation; UNCONSTRUCTED is left by CONFIGURE only, to READY or to ERROR as its
count says. -/
def Obligations.OperationsMoveBetweenPhasesAsTabled : Prop :=
  ∀ (i : Instr) (s : State),
    (s.constructed = true → ∃ t, exec i s = .next t ∧ phase t = phase s)
    ∧ (phase s = some .unconstructed → ∃ t, exec i s = .next t
      ∧ phase t = match i with
        | .configure count _ _ => if 8 ≤ count then some .error else some .ready
        | .sample => some .unconstructed
        | .tobinary _ _ => some .unconstructed
        | .getvalue => some .unconstructed)

/-- R125, R126: from the error state, through any number of requests whatever they are, `err` stays 1, no line is touched,
every response carries `err = 1`, GETVALUE answers the sentinel and TOBINARY works as always. -/
def Obligations.ErrorStateLatches : Prop :=
  ∀ (n : Nat) (s : State), s.constructed = true → s.err = true → n ≤ s.host.length → OnlyRequests (s.host.take n) →
    ∃ t, runSteps n s = .next t ∧ SameConfiguration s t ∧ t.host = s.host.drop n
      ∧ ∀ (m : Nat) (w : Nat), n = m + 1 → s.host[m]? = some (.request w) →
        t.trace = [] ∧ ∃ v, t.rsp = some (responseWord v true)
          ∧ (decodeRequest s.params.widths w = .getvalue → v = s.params.sentinel)
          ∧ ∀ gray bw, decodeRequest s.params.widths w = .tobinary gray bw → v = toBinary gray

/-- R82, R126: a misconfigured block never touches a line: from the rejected CONFIGURE on, the line-side trace of the run
stays empty whatever the host requests. -/
def Obligations.MisconfiguredBlockNeverTouchesALine : Prop :=
  ∀ (n : Nat) (s : State) (count : Nat) (lines : Vector Nat 8) (invert : BitVec 1) (rest : List HostEvent),
    s.constructed = false → 8 ≤ count → (Instr.configure count lines invert).wf s.params.widths = true →
    s.host = .request (encode s.params.widths (.configure count lines invert)) :: rest →
    OnlyRequests rest → runTrace n s = []

/-! ### CONFIGURE (40_bitsampler.md R80 to R84) -/

/-- R81: the first CONFIGURE is rejected if and only if its count is at least 8, whatever its identifiers are, distinct or
not, and whatever lines the platform has. -/
def Obligations.CountIsRejectedExactlyFromEight : Prop :=
  ∀ (count : Nat) (lines : Vector Nat 8) (invert : BitVec 1) (s : State), s.constructed = false → s.err = false →
    ∃ t, exec (.configure count lines invert) s = .next t ∧ (t.err = true ↔ 8 ≤ count)

/-- R24, R51, R80, R82, R83, R122, R124, of the operation itself: the first CONFIGURE. Accepted, it stores count and invert,
writes slots 0 to count-1 with the identifier and the kind and the threshold the platform gives it, issues one set-up per
configured line in order, and leaves every other slot and `err` alone. Rejected, it sets `err` and `constructed` and does
nothing else. Either way it responds `value = 0` and the flag. (The response's value is the spec's decision D6, what a
rejected one leaves unstored its decision D19. Three clauses are the model's choice: the threshold of a digital slot, which
the platform does not give and of which only the width is said, and `configurations`, log entry 5; `written`, log entry 1.) -/
def Obligations.FirstConfigureStoresOrLatches : Prop :=
  ∀ (count : Nat) (lines : Vector Nat 8) (invert : BitVec 1) (s : State), s.constructed = false →
    (count < 8 →
      ∃ (n : BitVec 3) (unused : Fin 8 → Nat), n.toNat = count ∧ (∀ i, unused i < 2 ^ s.params.widths.adcBits) ∧
        exec (.configure count lines invert) s =
          .next { s with
            constructed := true
            count := n
            invert := invert
            line := Vector.ofFn fun i : Fin 8 =>
              if i.val < count then
                match platformKind s.params lines[i] with
                | .digitalLine => ⟨lines[i], .digitalLine, unused i⟩
                | .thresholdAnalogLine threshold => ⟨lines[i], .thresholdAnalogLine, threshold⟩
              else s.line[i]
            written := Vector.ofFn fun i : Fin 8 => decide (i.val < count) || s.written[i]
            configurations := s.configurations + 1
            rsp := some (responseWord 0 s.err)
            trace := (lines.toList.take count).map fun id =>
              .setup id (capabilityKind (platformKind s.params id)) })
    ∧ (8 ≤ count →
      exec (.configure count lines invert) s =
        .next { s with constructed := true, err := true, rsp := some 0x100, trace := [] })

/-- R84: a CONFIGURE when `constructed = 1` is ignored and answered with the current `err`. (The spec's decision D10.) -/
def Obligations.LaterConfigureIsIgnored : Prop :=
  ∀ (count : Nat) (lines : Vector Nat 8) (invert : BitVec 1) (s : State), s.constructed = true →
    exec (.configure count lines invert) s = .next { s with rsp := some (responseWord 0 s.err), trace := [] }

/-- R64: `line_i` for `i >= count` is ignored, and every `line_i` when the count is 8 or more. (The field is the spec's
decision D8.) -/
def Obligations.UnusedLineOperandsAreIgnored : Prop :=
  ∀ (count : Nat) (lines lines' : Vector Nat 8) (invert : BitVec 1) (s : State),
    (count < 8 → ∀ i : Fin 8, i.val < count → lines'[i] = lines[i]) →
    ∃ t, exec (.configure count lines invert) s = .next t ∧ exec (.configure count lines' invert) s = .next t

/-- R5, R54: the platform function and the parameters' defaults: every identifier the platform does not list is digital, a
listed one is analog with the platform's threshold, or with `THRESHOLD_DEFAULT` if the platform gives none; by default nothing
is listed, the default threshold is 977, the sentinel 42, `ADC_BITS` 10, `LINE_ID_BITS` 8 and `COUNT_BITS` 4, hence
`W_REQ` 71. (The parameters' values are the spec's decisions D7, D8, D16, D17, D20. PLATFORM_KIND as a list, in which the first
entry for an identifier counts, is log entry 2.) -/
def Obligations.PlatformKindAndItsDefaults : Prop :=
  (∀ (p : Config.Params) (id : Nat), (∀ e ∈ p.analogLines, e.1 ≠ id) → platformKind p id = .digitalLine)
    ∧ (∀ (p : Config.Params) (id : Nat) (o : Option Nat) (pre rest : List (Nat × Option Nat)),
      p.analogLines = pre ++ (id, o) :: rest → (∀ e ∈ pre, e.1 ≠ id) →
      platformKind p id = .thresholdAnalogLine (o.getD p.thresholdDefault))
    ∧ State.reset.params.analogLines = [] ∧ State.reset.params.thresholdDefault = 977
    ∧ State.reset.params.sentinel = 42 ∧ State.reset.params.widths.adcBits = 10
    ∧ State.reset.params.widths.lineIdBits = 8 ∧ State.reset.params.widths.countBits = 4
    ∧ State.reset.params.widths.reqBits = 71

/-- R82, §9 of the source: the variant is resolved once, at configuration time: once constructed, whatever the platform
function becomes, no operation does anything else. -/
def Obligations.VariantIsResolvedOnce : Prop :=
  ∀ (i : Instr) (s : State) (analogLines : List (Nat × Option Nat)) (thresholdDefault : Nat),
    s.constructed = true →
    ∃ t t', exec i s = .next t
      ∧ exec i { s with params := { s.params with analogLines := analogLines, thresholdDefault := thresholdDefault } }
        = .next t'
      ∧ { t' with params := t.params } = t

/-! ### SAMPLE (40_bitsampler.md R85 to R92) -/

/-- R46, R51, R85, R87: SAMPLE with `err = 0` reads every configured line once, in index order, bit i of the value being 1
exactly when the i-th line is configured and its reading is active, and changes no other state of the block. (That it takes one
answer from the list `answers` and counts one up in `draws` per read is the model's choice, log entry 4.) -/
def Obligations.SampleReadsEveryConfiguredLineInOrder : Prop :=
  ∀ s : State, s.err = false → ∃ raw : Value,
    (∀ i : Fin 8, raw.getLsbD i.val = true ↔ i.val < s.count.toNat ∧
      match s.line[i].kind with
      | .digitalLine => (answerAt s i.val).digital = 1
      | .thresholdAnalogLine => s.line[i].threshold < (answerAt s i.val).analog)
    ∧ exec .sample s =
      .next { s with
        answers := s.answers.drop s.count.toNat
        draws := s.draws + s.count.toNat
        rsp := some (responseWord raw false)
        trace := ((List.finRange 8).take s.count.toNat).map fun i =>
          match s.line[i].kind with
          | .digitalLine => .readDigital s.line[i].id (answerAt s i.val).digital
          | .thresholdAnalogLine => .readAnalog s.line[i].id (answerAt s i.val).analog }

/-- R88: a configured digital line gives bit 1 exactly when its read returns high, whatever `invert` and its slot's threshold
hold. -/
def Obligations.DigitalLineIsActiveWhenHigh : Prop :=
  ∀ (s : State) (i : Fin 8), s.err = false → i.val < s.count.toNat → s.line[i].kind = .digitalLine →
    ∃ t raw, exec .sample s = .next t ∧ t.rsp = some (responseWord raw false)
      ∧ (raw.getLsbD i.val = true ↔ (answerAt s i.val).digital = 1)

/-- R89, R153: a configured analog line gives bit 1 exactly when its reading is strictly greater than its threshold, whatever
the full scale of `2^ADC_BITS` counts is; at the default 977 of 1024 counts the readings 0 to 977 are inactive and 978 to 1023
are active. (Strictness is the spec's decision D15.) -/
def Obligations.AnalogLineIsActiveAboveItsThreshold : Prop :=
  ∀ (s : State) (i : Fin 8), s.err = false → i.val < s.count.toNat → s.line[i].kind = .thresholdAnalogLine →
    ∃ t raw, exec .sample s = .next t ∧ t.rsp = some (responseWord raw false)
      ∧ (raw.getLsbD i.val = true ↔ s.line[i].threshold < (answerAt s i.val).analog)
      ∧ (s.line[i].threshold = 977 → s.params.widths.adcBits = 10 →
        (raw.getLsbD i.val = false ↔ (answerAt s i.val).analog ≤ 977)
          ∧ (raw.getLsbD i.val = true ↔ 978 ≤ (answerAt s i.val).analog ∧ (answerAt s i.val).analog ≤ 1023))

/-- R44: every analog read that any operation makes returns a number below `2^ADC_BITS`, at every choice of the width. -/
def Obligations.AnalogReadingsAreOfAdcBitsBits : Prop :=
  ∀ (i : Instr) (s : State), ∃ t, exec i s = .next t
    ∧ ∀ id result, .readAnalog id result ∈ t.trace → result < 2 ^ s.params.widths.adcBits

/-- R90 (2): the raw sample is below `2^count`; its bit 7 is 0 and it is at most 127. -/
def Obligations.RawSampleIsBelowTwoToTheCount : Prop :=
  ∀ s : State, s.err = false → ∃ t raw, exec .sample s = .next t ∧ t.rsp = some (responseWord raw false)
    ∧ raw.toNat < 2 ^ s.count.toNat ∧ raw.getLsbD 7 = false ∧ raw.toNat ≤ 127

/-- R86: SAMPLE in the error state touches no line and changes nothing but its response. (The response's value 0 is the
spec's decision D27, U3; log entry 11.) -/
def Obligations.SampleInErrorStateTouchesNoLine : Prop :=
  ∀ s : State, s.err = true →
    exec .sample s = .next { s with rsp := some (responseWord 0 true), trace := [] }

/-- R90 (3), R151: two configurations that differ in the order of two lines, read while every line holds still, have the
two bits swapped and every other bit equal. -/
def Obligations.SwappingTwoLinesSwapsTheirBits : Prop :=
  ∀ (s s' : State) (i j : Fin 8) (level : Nat → LineAnswer), s.err = false → s'.err = false → s'.count = s.count →
    i.val < s.count.toNat → j.val < s.count.toNat → s'.line = (s.line.set i s.line[j]).set j s.line[i] →
    (∀ k : Fin 8, k.val < s.count.toNat → answerAt s k.val = level s.line[k].id) →
    (∀ k : Fin 8, k.val < s.count.toNat → answerAt s' k.val = level s'.line[k].id) →
    ∃ t t' raw raw', exec .sample s = .next t ∧ exec .sample s' = .next t' ∧ t.rsp = some (responseWord raw false)
      ∧ t'.rsp = some (responseWord raw' false) ∧ raw'.getLsbD i.val = raw.getLsbD j.val
      ∧ raw'.getLsbD j.val = raw.getLsbD i.val
      ∧ ∀ k : Fin 8, k ≠ i → k ≠ j → raw'.getLsbD k.val = raw.getLsbD k.val

/-- R92, R116, R130: SAMPLE and GETVALUE before any CONFIGURE touch no line and answer 0. (The spec's decision D26, U2: the
0 is no reading; log entry 11.) -/
def Obligations.OperationsBeforeConfigureTouchNoLine : Prop :=
  ∀ s : State, BlockInv s → s.constructed = false →
    exec .sample s = .next { s with rsp := some (responseWord 0 false), trace := [] }
      ∧ exec .getvalue s = .next { s with rsp := some (responseWord 0 false), trace := [] }

/-! ### TOBINARY (41_gray_converter.md) -/

/-- R100, R103: TOBINARY answers `ToBinary(gray)` in every phase, whatever `bw` is, and changes nothing. -/
def Obligations.TobinaryConvertsInEveryPhase : Prop :=
  ∀ (gray : Value) (bw : BitVec 4) (s : State),
    exec (.tobinary gray bw) s = .next { s with rsp := some (responseWord (toBinary gray) s.err), trace := [] }

/-- R101, R105, R157: the loop makes k+1 passes when the highest set bit is bit k and none for 0, and then stops: any
larger bound on its passes gives the same result. -/
def Obligations.ConversionLoopStopsAfterTheHighestBit : Prop :=
  ∀ (gray : Value) (k n : Nat), k + 1 ≤ n →
    (2 ^ k ≤ gray.toNat ∧ gray.toNat < 2 ^ (k + 1) →
      toBinaryPasses n gray = k + 1 ∧ toBinaryLoop n gray gray = toBinary gray)
    ∧ (gray = 0 → toBinaryPasses n gray = 0 ∧ toBinary gray = 0)

/-- R102: the closed form, and the parity of the bits at and above each position. -/
def Obligations.ConversionClosedForm : Prop :=
  ∀ g : Value,
    toBinary g = g ^^^ (g >>> 1) ^^^ (g >>> 2) ^^^ (g >>> 3) ^^^ (g >>> 4) ^^^ (g >>> 5) ^^^ (g >>> 6) ^^^ (g >>> 7)
      ∧ (toBinary g).getLsbD 7 = g.getLsbD 7
      ∧ ∀ j : Fin 7, (toBinary g).getLsbD j.val = ((toBinary g).getLsbD (j.val + 1) ^^ g.getLsbD j.val)

/-- R104: the highest set bit of the input is the highest set bit of the result. -/
def Obligations.ConversionKeepsTheHighestBit : Prop :=
  ∀ (g : Value) (k : Fin 8), 2 ^ k.val ≤ g.toNat → g.toNat < 2 ^ (k.val + 1) →
    2 ^ k.val ≤ (toBinary g).toNat ∧ (toBinary g).toNat < 2 ^ (k.val + 1)

/-- R106: a single set bit k gives the number with bits 0 to k set and no other, `2^(k+1) - 1`. -/
def Obligations.SingleSetBitFillsDownward : Prop :=
  ∀ k : Fin 8, (toBinary (1#8 <<< k.val)).toNat = 2 ^ (k.val + 1) - 1
    ∧ ∀ j : Fin 8, (toBinary (1#8 <<< k.val)).getLsbD j.val = decide (j.val ≤ k.val)

/-- R107: the four properties the source requires. -/
def Obligations.GrayRoundTrips : Prop :=
  toBinary 0 = 0 ∧ toBinary 0b1000 = 0b1111 ∧ toBinary 0b1010 = 0b1100 ∧ ∀ b : Value, toBinary (toGray b) = b

/-- The other direction, an inference 41_gray_converter.md marks [derived] under R107: "`ToBinary` is a bijection of [0, 255]
and `ToGray(ToBinary(g)) == g` for every g". -/
def Obligations.GrayOfBinaryIsIdentity : Prop :=
  ∀ g : Value, toGray (toBinary g) = g

/-- R108: the Gray codes of two successive positions differ in exactly one bit. -/
def Obligations.SuccessivePositionsDifferInOneBit : Prop :=
  ∀ p : Value, ∃ k : Fin 8, toGray p ^^^ toGray (p + 1) = 1#8 <<< k.val

/-! ### GETVALUE (42_decoder_facade.md) -/

/-- R111, R112: in the error state GETVALUE answers the sentinel, whatever it is (42 by default), touches no line and changes
nothing; with `err = 0` it makes the reads of one sampling procedure, answers the whole raw sample converted, and keeps
nothing of it. (That it takes one answer from the list `answers` and counts one up in `draws` per read is the model's choice,
log entry 4.) -/
def Obligations.GetvalueAnswersTheSentinelOrTheConvertedSample : Prop :=
  State.reset.params.sentinel = 42 ∧ ∀ s : State,
    (s.err = true →
      exec .getvalue s = .next { s with rsp := some (responseWord s.params.sentinel true), trace := [] })
    ∧ (s.err = false → ∃ raw : Value, IsRawSample s raw ∧
      exec .getvalue s =
        .next { s with
          answers := s.answers.drop s.count.toNat
          draws := s.draws + s.count.toNat
          rsp := some (responseWord (toBinary raw) false)
          trace := samplingTrace s })

/-- R113: with `err = 0` GETVALUE answers a value below `2^count`, never above 127. -/
def Obligations.GetvalueIsBelowTwoToTheCount : Prop :=
  ∀ s : State, s.err = false → ∃ t v, exec .getvalue s = .next t ∧ t.rsp = some (responseWord v false)
    ∧ v.toNat < 2 ^ s.count.toNat ∧ v.toNat ≤ 127

/-- R113, R150: every value below `2^count` is the answer to some line states, the sentinel's value among them, provided no
configured analog line has the full scale `2^ADC_BITS - 1` as its threshold (such a line is never active, by R89). -/
def Obligations.EveryValueBelowTwoToTheCountIsReachable : Prop :=
  ∀ (s : State) (v : Value), s.err = false →
    (∀ i : Fin 8, i.val < s.count.toNat → s.line[i].kind = .thresholdAnalogLine →
      s.line[i].threshold < 2 ^ s.params.widths.adcBits - 1) →
    v.toNat < 2 ^ s.count.toNat →
    ∃ answers t, exec .getvalue { s with answers := answers } = .next t ∧ t.rsp = some (responseWord v false)

/-- R115: two value requests whose reads return the same values answer the same, with the same trace, whatever operations
come between them. -/
def Obligations.GetvalueIsIdempotent : Prop :=
  ∀ (between : List Instr) (s t : State), s.constructed = true → execAll between s = .next t →
    (∀ k, k < s.count.toNat → answerAt t k = answerAt s k) →
    ∃ u v, exec .getvalue s = .next u ∧ exec .getvalue t = .next v ∧ v.rsp = u.rsp ∧ v.trace = u.trace

/-- R148: while a wheel of `2^count` positions moves from one position to the next or stays, each read seeing its line
before or after the move, GETVALUE answers one of the two positions, whichever of the lines are analog. -/
def Obligations.MovingWheelReadsOneOfTwoAdjacentPositions : Prop :=
  ∀ (s : State) (p q : Value), s.err = false → p.toNat < 2 ^ s.count.toNat →
    q.toNat = (p.toNat + 1) % 2 ^ s.count.toNat →
    (∀ i : Fin 8, i.val < s.count.toNat →
      slotActive s.line[i] (answerAt s i.val) = (toGray p).getLsbD i.val
        ∨ slotActive s.line[i] (answerAt s i.val) = (toGray q).getLsbD i.val) →
    ∃ t, exec .getvalue s = .next t
      ∧ (t.rsp = some (responseWord p false) ∨ t.rsp = some (responseWord q false))

/-- R3, R14, R46, R87, R111, end to end: an accepted CONFIGURE and then a GETVALUE, presented as request words while every
line holds still, answer the conversion of the number whose bit i is the state of the i-th identifier of the list, with
one read per identifier in the list's order. -/
def Obligations.ConfigureThenGetvalueReadsTheConfiguredLines : Prop :=
  ∀ (s : State) (count : Nat) (lines : Vector Nat 8) (invert : BitVec 1) (rest : List HostEvent)
    (level : Nat → LineAnswer),
    s.constructed = false → s.err = false → count < 8 →
    (Instr.configure count lines invert).wf s.params.widths = true →
    s.host = .request (encode s.params.widths (.configure count lines invert))
      :: .request (encode s.params.widths .getvalue) :: rest →
    (∀ k : Fin 8, k.val < count → answerAt s k.val = level lines[k]) →
    ∃ t raw, runSteps 2 s = .next t ∧ t.host = rest ∧ t.rsp = some (responseWord (toBinary raw) false)
      ∧ (∀ i : Fin 8, raw.getLsbD i.val = true ↔ i.val < count ∧
        match platformKind s.params lines[i] with
        | .digitalLine => (level lines[i]).digital = 1
        | .thresholdAnalogLine threshold => threshold < (level lines[i]).analog)
      ∧ t.trace = (lines.toList.take count).map fun id =>
        match platformKind s.params id with
        | .digitalLine => .readDigital id (level id).digital
        | .thresholdAnalogLine _ => .readAnalog id (level id).analog

/-! ### What has no effect, and how much is issued -/

/-- R25, R149: `invert` changes no read, no value and no response of any operation, and no other state. -/
def Obligations.InvertChangesNothing : Prop :=
  ∀ (i : Instr) (s : State) (b : BitVec 1),
    ∃ t t', exec i s = .next t ∧ exec i { s with invert := b } = .next t' ∧ t'.rsp = t.rsp ∧ t'.trace = t.trace
      ∧ { t' with invert := t.invert } = t

/-- R24, R33: a slot at index `count` or above is never read: whatever it holds, no operation does anything else. -/
def Obligations.UnconfiguredSlotsAreNeverRead : Prop :=
  ∀ (i : Instr) (s : State) (slots : Vector LineSlot 8),
    (∀ k : Fin 8, k.val < s.count.toNat → slots[k] = s.line[k]) →
    ∃ t t', exec i s = .next t ∧ exec i { s with line := slots } = .next t' ∧ { t' with line := t.line } = t
      ∧ ∀ k : Fin 8, k.val < t.count.toNat → t'.line[k] = t.line[k]

/-- R24: the threshold of a digital slot is unused: states whose configured slots have the same identifiers and kinds, and the
same thresholds where the line is analog, do the same on every operation, and their slots stay so. -/
def Obligations.ThresholdOfADigitalSlotIsUnused : Prop :=
  ∀ (i : Instr) (s : State) (slots : Vector LineSlot 8),
    (∀ k : Fin 8, k.val < s.count.toNat → SameToReads slots[k] s.line[k]) →
    ∃ t t', exec i s = .next t ∧ exec i { s with line := slots } = .next t' ∧ { t' with line := t.line } = t
      ∧ ∀ k : Fin 8, k.val < t.count.toNat → SameToReads t'.line[k] t.line[k]

/-- R82, R86, R112, R157: an accepted CONFIGURE issues `count` set-ups and no read, SAMPLE and GETVALUE with `err = 0` issue
`count` reads and no set-up, and nothing else issues anything. -/
def Obligations.LineTransactionsAreCounted : Prop :=
  ∀ (i : Instr) (s : State), ∃ t, exec i s = .next t ∧
    match i with
    | .configure count _ _ =>
      t.trace.length = (if s.constructed = false ∧ count < 8 then count else 0)
        ∧ ∀ x ∈ t.trace, ∃ id kind, x = .setup id kind
    | .sample => t.trace.length = (if s.err then 0 else s.count.toNat) ∧ ∀ x ∈ t.trace, ∀ id kind, x ≠ .setup id kind
    | .getvalue => t.trace.length = (if s.err then 0 else s.count.toNat) ∧ ∀ x ∈ t.trace, ∀ id kind, x ≠ .setup id kind
    | .tobinary _ _ => t.trace = []
end

