-- ==== Sys2Proof/Laws/Encoding.lean ====
section
/-! SUPPORT. Fields of request words: reading one out of packed fields, packing what was read, and bytes as numbers. -/

namespace Sys2Proof

/-- How many bits packed fields take. -/
def fieldsWidth : List (Nat × Nat) → Nat
  | [] => 0
  | f :: rest => f.1 + fieldsWidth rest

theorem field_eq (w : Nat) (lo len : Nat) : ReqWord.field w lo len = w / 2 ^ lo % 2 ^ len := by
  rw [ReqWord.field, Nat.shiftRight_eq_div_pow]

theorem field_lt (w : Nat) (lo len : Nat) : ReqWord.field w lo len < 2 ^ len :=
  Nat.mod_lt _ (by positivity)

theorem packFields_lt : ∀ fs : List (Nat × Nat), packFields fs < 2 ^ fieldsWidth fs
  | [] => by simp [packFields, fieldsWidth]
  | (len, v) :: rest => by
    have ih := packFields_lt rest
    have hv : v % 2 ^ len < 2 ^ len := Nat.mod_lt _ (by positivity)
    rw [packFields, fieldsWidth, Nat.pow_add]
    nlinarith [Nat.mul_le_mul_left (2 ^ len) (Nat.succ_le_of_lt ih)]

theorem fieldsWidth_append (fs gs : List (Nat × Nat)) : fieldsWidth (fs ++ gs) = fieldsWidth fs + fieldsWidth gs := by
  induction fs with
  | nil => simp [fieldsWidth]
  | cons f fs ih => simp only [List.cons_append, fieldsWidth, ih]; omega

/-- The first of packed fields is read back. -/
theorem field_packFields_head (len v : Nat) (rest : List (Nat × Nat)) :
    ReqWord.field (packFields ((len, v) :: rest)) 0 len = v % 2 ^ len := by
  rw [field_eq, packFields, Nat.pow_zero, Nat.div_one, Nat.add_mul_mod_self_left, Nat.mod_mod]

/-- Past the first field the others stand as they were packed. -/
theorem field_packFields_tail (len v lo n : Nat) (rest : List (Nat × Nat)) :
    ReqWord.field (packFields ((len, v) :: rest)) (len + lo) n = ReqWord.field (packFields rest) lo n := by
  have hv : v % 2 ^ len < 2 ^ len := Nat.mod_lt _ (by positivity)
  rw [field_eq, field_eq, packFields, Nat.pow_add, ← Nat.div_div_eq_div_mul, Nat.add_mul_div_left _ _ (by positivity),
    Nat.div_eq_of_lt hv, Nat.zero_add]

/-- Every packed field is read back from where it was put. -/
theorem field_packFields (pre : List (Nat × Nat)) (len v : Nat) (post : List (Nat × Nat)) :
    ReqWord.field (packFields (pre ++ (len, v) :: post)) (fieldsWidth pre) len = v % 2 ^ len := by
  induction pre with
  | nil => exact field_packFields_head len v post
  | cons f pre ih => rw [List.cons_append, fieldsWidth, field_packFields_tail, ih]

/-- The fields of the given widths read one after another from bit `lo` on. -/
def readFields (w : Nat) : Nat → List Nat → List (Nat × Nat)
  | _, [] => []
  | lo, len :: rest => (len, ReqWord.field w lo len) :: readFields w (lo + len) rest

/-- Packing the fields that were read one after another gives the bits that were read. -/
theorem packFields_readFields (w : Nat) : ∀ (lens : List Nat) (lo : Nat),
    packFields (readFields w lo lens) = ReqWord.field w lo lens.sum
  | [], lo => by simp [readFields, packFields, ReqWord.field, Nat.mod_one]
  | len :: rest, lo => by
    rw [readFields, packFields, packFields_readFields w rest, List.sum_cons, field_eq, field_eq, field_eq, Nat.mod_mod,
      Nat.pow_add 2 lo, ← Nat.div_div_eq_div_mul, Nat.pow_add 2 len, ← Nat.mod_mul]

theorem length_bytesOfNat : ∀ n w : Nat, (bytesOfNat n w).length = n
  | 0, _ => rfl
  | n + 1, w => by rw [bytesOfNat, List.length_cons, length_bytesOfNat n]

theorem natOfBytes_bytesOfNat : ∀ n w : Nat, natOfBytes (bytesOfNat n w) = w % 256 ^ n
  | 0, w => by simp [bytesOfNat, natOfBytes, Nat.mod_one]
  | n + 1, w => by
    rw [bytesOfNat, natOfBytes, natOfBytes_bytesOfNat n, BitVec.toNat_ofNat, Nat.pow_succ 256, Nat.mul_comm (256 ^ n),
      Nat.mod_mul]

/-- A request word laid out in bytes is itself again. -/
theorem wordOfBytes_tableWordBytes (c : Config.Widths) (w : Nat) (h : w < 2 ^ c.reqBits) :
    wordOfBytes c (tableWordBytes c c.reqBits w) = .ok w := by
  have hb : w < 256 ^ c.reqBytes := by
    refine Nat.lt_of_lt_of_le h ?_
    rw [show 256 = 2 ^ 8 from rfl, ← Nat.pow_mul]
    exact Nat.pow_le_pow_right (by omega) (by unfold Config.Widths.reqBytes; omega)
  rw [wordOfBytes, tableWordBytes, length_bytesOfNat, if_neg (Nat.lt_irrefl _), if_neg (Nat.lt_irrefl _),
    natOfBytes_bytesOfNat, Nat.mod_eq_of_lt h, Nat.mod_eq_of_lt hb, Nat.mod_eq_of_lt h]

end Sys2Proof
end

