-- ==== Sys2Proof/Laws/State.lean ====
section
/-! SUPPORT. What each state update does to each field: one lemma per field per update. -/

namespace Sys2Proof.Machine

/-! ### takeEvent -/

@[simp] theorem takeEvent_constructed (s : State) : (takeEvent s).constructed = s.constructed := rfl
@[simp] theorem takeEvent_err (s : State) : (takeEvent s).err = s.err := rfl
@[simp] theorem takeEvent_count (s : State) : (takeEvent s).count = s.count := rfl
@[simp] theorem takeEvent_line (s : State) : (takeEvent s).line = s.line := rfl
@[simp] theorem takeEvent_invert (s : State) : (takeEvent s).invert = s.invert := rfl
@[simp] theorem takeEvent_rsp (s : State) : (takeEvent s).rsp = s.rsp := rfl
@[simp] theorem takeEvent_trace (s : State) : (takeEvent s).trace = s.trace := rfl
@[simp] theorem takeEvent_written (s : State) : (takeEvent s).written = s.written := rfl
@[simp] theorem takeEvent_params (s : State) : (takeEvent s).params = s.params := rfl
@[simp] theorem takeEvent_host (s : State) : (takeEvent s).host = s.host.tail := rfl
@[simp] theorem takeEvent_answers (s : State) : (takeEvent s).answers = s.answers := rfl
@[simp] theorem takeEvent_draws (s : State) : (takeEvent s).draws = s.draws := rfl
@[simp] theorem takeEvent_configurations (s : State) : (takeEvent s).configurations = s.configurations := rfl

/-! ### presentRequest -/

@[simp] theorem presentRequest_constructed (w : Nat) (s : State) : (presentRequest w s).constructed = s.constructed := rfl
@[simp] theorem presentRequest_err (w : Nat) (s : State) : (presentRequest w s).err = s.err := rfl
@[simp] theorem presentRequest_count (w : Nat) (s : State) : (presentRequest w s).count = s.count := rfl
@[simp] theorem presentRequest_line (w : Nat) (s : State) : (presentRequest w s).line = s.line := rfl
@[simp] theorem presentRequest_invert (w : Nat) (s : State) : (presentRequest w s).invert = s.invert := rfl
@[simp] theorem presentRequest_rsp (w : Nat) (s : State) : (presentRequest w s).rsp = s.rsp := rfl
@[simp] theorem presentRequest_trace (w : Nat) (s : State) : (presentRequest w s).trace = s.trace := rfl
@[simp] theorem presentRequest_written (w : Nat) (s : State) : (presentRequest w s).written = s.written := rfl
@[simp] theorem presentRequest_params (w : Nat) (s : State) : (presentRequest w s).params = s.params := rfl
@[simp] theorem presentRequest_host (w : Nat) (s : State) : (presentRequest w s).host = .request w :: s.host := rfl
@[simp] theorem presentRequest_answers (w : Nat) (s : State) : (presentRequest w s).answers = s.answers := rfl
@[simp] theorem presentRequest_draws (w : Nat) (s : State) : (presentRequest w s).draws = s.draws := rfl
@[simp] theorem presentRequest_configurations (w : Nat) (s : State) : (presentRequest w s).configurations = s.configurations := rfl

/-! ### beginOperation -/

@[simp] theorem beginOperation_constructed (s : State) : (beginOperation s).constructed = s.constructed := rfl
@[simp] theorem beginOperation_err (s : State) : (beginOperation s).err = s.err := rfl
@[simp] theorem beginOperation_count (s : State) : (beginOperation s).count = s.count := rfl
@[simp] theorem beginOperation_line (s : State) : (beginOperation s).line = s.line := rfl
@[simp] theorem beginOperation_invert (s : State) : (beginOperation s).invert = s.invert := rfl
@[simp] theorem beginOperation_rsp (s : State) : (beginOperation s).rsp = none := rfl
@[simp] theorem beginOperation_trace (s : State) : (beginOperation s).trace = [] := rfl
@[simp] theorem beginOperation_written (s : State) : (beginOperation s).written = s.written := rfl
@[simp] theorem beginOperation_params (s : State) : (beginOperation s).params = s.params := rfl
@[simp] theorem beginOperation_host (s : State) : (beginOperation s).host = s.host := rfl
@[simp] theorem beginOperation_answers (s : State) : (beginOperation s).answers = s.answers := rfl
@[simp] theorem beginOperation_draws (s : State) : (beginOperation s).draws = s.draws := rfl
@[simp] theorem beginOperation_configurations (s : State) : (beginOperation s).configurations = s.configurations := rfl

/-! ### respond -/

@[simp] theorem respond_constructed (v : Value) (s : State) : (respond v s).constructed = s.constructed := rfl
@[simp] theorem respond_err (v : Value) (s : State) : (respond v s).err = s.err := rfl
@[simp] theorem respond_count (v : Value) (s : State) : (respond v s).count = s.count := rfl
@[simp] theorem respond_line (v : Value) (s : State) : (respond v s).line = s.line := rfl
@[simp] theorem respond_invert (v : Value) (s : State) : (respond v s).invert = s.invert := rfl
@[simp] theorem respond_rsp (v : Value) (s : State) : (respond v s).rsp = some (responseWord v s.err) := rfl
@[simp] theorem respond_trace (v : Value) (s : State) : (respond v s).trace = s.trace := rfl
@[simp] theorem respond_written (v : Value) (s : State) : (respond v s).written = s.written := rfl
@[simp] theorem respond_params (v : Value) (s : State) : (respond v s).params = s.params := rfl
@[simp] theorem respond_host (v : Value) (s : State) : (respond v s).host = s.host := rfl
@[simp] theorem respond_answers (v : Value) (s : State) : (respond v s).answers = s.answers := rfl
@[simp] theorem respond_draws (v : Value) (s : State) : (respond v s).draws = s.draws := rfl
@[simp] theorem respond_configurations (v : Value) (s : State) : (respond v s).configurations = s.configurations := rfl

/-! ### issue -/

@[simp] theorem issue_constructed (t : LineTxn) (s : State) : (issue t s).constructed = s.constructed := rfl
@[simp] theorem issue_err (t : LineTxn) (s : State) : (issue t s).err = s.err := rfl
@[simp] theorem issue_count (t : LineTxn) (s : State) : (issue t s).count = s.count := rfl
@[simp] theorem issue_line (t : LineTxn) (s : State) : (issue t s).line = s.line := rfl
@[simp] theorem issue_invert (t : LineTxn) (s : State) : (issue t s).invert = s.invert := rfl
@[simp] theorem issue_rsp (t : LineTxn) (s : State) : (issue t s).rsp = s.rsp := rfl
@[simp] theorem issue_trace (t : LineTxn) (s : State) : (issue t s).trace = s.trace ++ [t] := rfl
@[simp] theorem issue_written (t : LineTxn) (s : State) : (issue t s).written = s.written := rfl
@[simp] theorem issue_params (t : LineTxn) (s : State) : (issue t s).params = s.params := rfl
@[simp] theorem issue_host (t : LineTxn) (s : State) : (issue t s).host = s.host := rfl
@[simp] theorem issue_answers (t : LineTxn) (s : State) : (issue t s).answers = s.answers := rfl
@[simp] theorem issue_draws (t : LineTxn) (s : State) : (issue t s).draws = s.draws := rfl
@[simp] theorem issue_configurations (t : LineTxn) (s : State) : (issue t s).configurations = s.configurations := rfl

/-! ### consumeAnswer -/

@[simp] theorem consumeAnswer_constructed (s : State) : (consumeAnswer s).constructed = s.constructed := rfl
@[simp] theorem consumeAnswer_err (s : State) : (consumeAnswer s).err = s.err := rfl
@[simp] theorem consumeAnswer_count (s : State) : (consumeAnswer s).count = s.count := rfl
@[simp] theorem consumeAnswer_line (s : State) : (consumeAnswer s).line = s.line := rfl
@[simp] theorem consumeAnswer_invert (s : State) : (consumeAnswer s).invert = s.invert := rfl
@[simp] theorem consumeAnswer_rsp (s : State) : (consumeAnswer s).rsp = s.rsp := rfl
@[simp] theorem consumeAnswer_trace (s : State) : (consumeAnswer s).trace = s.trace := rfl
@[simp] theorem consumeAnswer_written (s : State) : (consumeAnswer s).written = s.written := rfl
@[simp] theorem consumeAnswer_params (s : State) : (consumeAnswer s).params = s.params := rfl
@[simp] theorem consumeAnswer_host (s : State) : (consumeAnswer s).host = s.host := rfl
@[simp] theorem consumeAnswer_answers (s : State) : (consumeAnswer s).answers = s.answers.tail := rfl
@[simp] theorem consumeAnswer_draws (s : State) : (consumeAnswer s).draws = s.draws + 1 := rfl
@[simp] theorem consumeAnswer_configurations (s : State) : (consumeAnswer s).configurations = s.configurations := rfl

/-! ### lineSetup -/

@[simp] theorem lineSetup_constructed (id : Nat) (k : LineKind) (s : State) : (lineSetup id k s).constructed = s.constructed := rfl
@[simp] theorem lineSetup_err (id : Nat) (k : LineKind) (s : State) : (lineSetup id k s).err = s.err := rfl
@[simp] theorem lineSetup_count (id : Nat) (k : LineKind) (s : State) : (lineSetup id k s).count = s.count := rfl
@[simp] theorem lineSetup_line (id : Nat) (k : LineKind) (s : State) : (lineSetup id k s).line = s.line := rfl
@[simp] theorem lineSetup_invert (id : Nat) (k : LineKind) (s : State) : (lineSetup id k s).invert = s.invert := rfl
@[simp] theorem lineSetup_rsp (id : Nat) (k : LineKind) (s : State) : (lineSetup id k s).rsp = s.rsp := rfl
@[simp] theorem lineSetup_trace (id : Nat) (k : LineKind) (s : State) : (lineSetup id k s).trace = s.trace ++ [.setup id k] := rfl
@[simp] theorem lineSetup_written (id : Nat) (k : LineKind) (s : State) : (lineSetup id k s).written = s.written := rfl
@[simp] theorem lineSetup_params (id : Nat) (k : LineKind) (s : State) : (lineSetup id k s).params = s.params := rfl
@[simp] theorem lineSetup_host (id : Nat) (k : LineKind) (s : State) : (lineSetup id k s).host = s.host := rfl
@[simp] theorem lineSetup_answers (id : Nat) (k : LineKind) (s : State) : (lineSetup id k s).answers = s.answers := rfl
@[simp] theorem lineSetup_draws (id : Nat) (k : LineKind) (s : State) : (lineSetup id k s).draws = s.draws := rfl
@[simp] theorem lineSetup_configurations (id : Nat) (k : LineKind) (s : State) : (lineSetup id k s).configurations = s.configurations := rfl

/-! ### takeConfigurationError -/

@[simp] theorem takeConfigurationError_constructed (s : State) : (takeConfigurationError s).constructed = true := rfl
@[simp] theorem takeConfigurationError_err (s : State) : (takeConfigurationError s).err = true := rfl
@[simp] theorem takeConfigurationError_count (s : State) : (takeConfigurationError s).count = s.count := rfl
@[simp] theorem takeConfigurationError_line (s : State) : (takeConfigurationError s).line = s.line := rfl
@[simp] theorem takeConfigurationError_invert (s : State) : (takeConfigurationError s).invert = s.invert := rfl
@[simp] theorem takeConfigurationError_rsp (s : State) : (takeConfigurationError s).rsp = s.rsp := rfl
@[simp] theorem takeConfigurationError_trace (s : State) : (takeConfigurationError s).trace = s.trace := rfl
@[simp] theorem takeConfigurationError_written (s : State) : (takeConfigurationError s).written = s.written := rfl
@[simp] theorem takeConfigurationError_params (s : State) : (takeConfigurationError s).params = s.params := rfl
@[simp] theorem takeConfigurationError_host (s : State) : (takeConfigurationError s).host = s.host := rfl
@[simp] theorem takeConfigurationError_answers (s : State) : (takeConfigurationError s).answers = s.answers := rfl
@[simp] theorem takeConfigurationError_draws (s : State) : (takeConfigurationError s).draws = s.draws := rfl
@[simp] theorem takeConfigurationError_configurations (s : State) : (takeConfigurationError s).configurations = s.configurations := rfl

/-! ### storeConfiguration -/

@[simp] theorem storeConfiguration_constructed (c : Nat) (v : BitVec 1) (s : State) : (storeConfiguration c v s).constructed = true := rfl
@[simp] theorem storeConfiguration_err (c : Nat) (v : BitVec 1) (s : State) : (storeConfiguration c v s).err = s.err := rfl
@[simp] theorem storeConfiguration_count (c : Nat) (v : BitVec 1) (s : State) : (storeConfiguration c v s).count = storedCount c := rfl
@[simp] theorem storeConfiguration_line (c : Nat) (v : BitVec 1) (s : State) : (storeConfiguration c v s).line = s.line := rfl
@[simp] theorem storeConfiguration_invert (c : Nat) (v : BitVec 1) (s : State) : (storeConfiguration c v s).invert = v := rfl
@[simp] theorem storeConfiguration_rsp (c : Nat) (v : BitVec 1) (s : State) : (storeConfiguration c v s).rsp = s.rsp := rfl
@[simp] theorem storeConfiguration_trace (c : Nat) (v : BitVec 1) (s : State) : (storeConfiguration c v s).trace = s.trace := rfl
@[simp] theorem storeConfiguration_written (c : Nat) (v : BitVec 1) (s : State) : (storeConfiguration c v s).written = s.written := rfl
@[simp] theorem storeConfiguration_params (c : Nat) (v : BitVec 1) (s : State) : (storeConfiguration c v s).params = s.params := rfl
@[simp] theorem storeConfiguration_host (c : Nat) (v : BitVec 1) (s : State) : (storeConfiguration c v s).host = s.host := rfl
@[simp] theorem storeConfiguration_answers (c : Nat) (v : BitVec 1) (s : State) : (storeConfiguration c v s).answers = s.answers := rfl
@[simp] theorem storeConfiguration_draws (c : Nat) (v : BitVec 1) (s : State) : (storeConfiguration c v s).draws = s.draws := rfl
@[simp] theorem storeConfiguration_configurations (c : Nat) (v : BitVec 1) (s : State) : (storeConfiguration c v s).configurations = s.configurations + 1 := rfl

/-! ### writeSlot -/

@[simp] theorem writeSlot_constructed (i : Fin 8) (x : LineSlot) (s : State) : (writeSlot i x s).constructed = s.constructed := rfl
@[simp] theorem writeSlot_err (i : Fin 8) (x : LineSlot) (s : State) : (writeSlot i x s).err = s.err := rfl
@[simp] theorem writeSlot_count (i : Fin 8) (x : LineSlot) (s : State) : (writeSlot i x s).count = s.count := rfl
@[simp] theorem writeSlot_line (i : Fin 8) (x : LineSlot) (s : State) : (writeSlot i x s).line = s.line.set i x := rfl
@[simp] theorem writeSlot_invert (i : Fin 8) (x : LineSlot) (s : State) : (writeSlot i x s).invert = s.invert := rfl
@[simp] theorem writeSlot_rsp (i : Fin 8) (x : LineSlot) (s : State) : (writeSlot i x s).rsp = s.rsp := rfl
@[simp] theorem writeSlot_trace (i : Fin 8) (x : LineSlot) (s : State) : (writeSlot i x s).trace = s.trace := rfl
@[simp] theorem writeSlot_written (i : Fin 8) (x : LineSlot) (s : State) : (writeSlot i x s).written = s.written.set i true := rfl
@[simp] theorem writeSlot_params (i : Fin 8) (x : LineSlot) (s : State) : (writeSlot i x s).params = s.params := rfl
@[simp] theorem writeSlot_host (i : Fin 8) (x : LineSlot) (s : State) : (writeSlot i x s).host = s.host := rfl
@[simp] theorem writeSlot_answers (i : Fin 8) (x : LineSlot) (s : State) : (writeSlot i x s).answers = s.answers := rfl
@[simp] theorem writeSlot_draws (i : Fin 8) (x : LineSlot) (s : State) : (writeSlot i x s).draws = s.draws := rfl
@[simp] theorem writeSlot_configurations (i : Fin 8) (x : LineSlot) (s : State) : (writeSlot i x s).configurations = s.configurations := rfl

/-! ### assertRst -/

@[simp] theorem assertRst_constructed (s : State) : (assertRst s).constructed = false := rfl
@[simp] theorem assertRst_err (s : State) : (assertRst s).err = false := rfl
@[simp] theorem assertRst_count (s : State) : (assertRst s).count = 0 := rfl
@[simp] theorem assertRst_line (s : State) : (assertRst s).line = Vector.replicate 8 LineSlot.atReset := rfl
@[simp] theorem assertRst_invert (s : State) : (assertRst s).invert = 0 := rfl
@[simp] theorem assertRst_rsp (s : State) : (assertRst s).rsp = none := rfl
@[simp] theorem assertRst_trace (s : State) : (assertRst s).trace = [] := rfl
@[simp] theorem assertRst_written (s : State) : (assertRst s).written = Vector.replicate 8 false := rfl
@[simp] theorem assertRst_params (s : State) : (assertRst s).params = s.params := rfl
@[simp] theorem assertRst_host (s : State) : (assertRst s).host = s.host := rfl
@[simp] theorem assertRst_answers (s : State) : (assertRst s).answers = s.answers := rfl
@[simp] theorem assertRst_draws (s : State) : (assertRst s).draws = s.draws := rfl
@[simp] theorem assertRst_configurations (s : State) : (assertRst s).configurations = s.configurations := rfl

end Sys2Proof.Machine
end

