-- ==== Sys2Proof/Laws/Ops.lean ====
section
/-! SUPPORT. One lemma per shared operation that says all it can do. -/

namespace Sys2Proof.Machine

/-! ### The environment's answers -/

theorem nextAnswer_eq (s : State) : nextAnswer s = answerAt s 0 := by
  unfold nextAnswer answerAt
  cases s.answers <;> rfl

theorem answerAt_congr {s t : State} (ha : t.answers = s.answers) (hd : t.draws = s.draws)
    (hp : t.params.widths = s.params.widths) : answerAt t = answerAt s := by
  funext k
  simp only [answerAt, ha, hd, hp]

/-- An analog answer is of the width of an analog read (R44). -/
theorem answerAt_analog_lt (s : State) (k : Nat) : (answerAt s k).analog < 2 ^ s.params.widths.adcBits :=
  Nat.mod_lt _ (by positivity)

theorem answerAt_consumeAnswer (s : State) (k : Nat) : answerAt (consumeAnswer s) k = answerAt s (k + 1) := by
  simp only [answerAt, consumeAnswer_answers, consumeAnswer_draws, consumeAnswer_params, List.getElem?_tail,
    show s.draws + 1 + k = s.draws + (k + 1) by omega]

@[simp] theorem answerAt_beginOperation (s : State) : answerAt (beginOperation s) = answerAt s := rfl

/-! ### The slots a count names -/

theorem slotsBelow_eq_take {n : Nat} (h : n ≤ 8) : slotsBelow n = (List.finRange 8).take n := by
  interval_cases n <;> decide

theorem length_slotsBelow {n : Nat} (h : n ≤ 8) : (slotsBelow n).length = n := by
  interval_cases n <;> decide

theorem count_lt (s : State) : s.count.toNat < 8 := s.count.isLt

/-! ### One read -/

theorem readActive_eq (slot : LineSlot) (s : State) :
    readActive slot s =
      (slotActive slot (answerAt s 0), issue (slotRead slot (answerAt s 0)) (consumeAnswer s)) := by
  unfold readActive slotActive slotRead
  cases slot.kind <;> simp only [memReadDigital, memReadAnalog, nextAnswer_eq]

theorem getLsbD_accumulate (acc : Value) (i : Fin 8) (b : Bool) (j : Fin 8) :
    (accumulate acc i b).getLsbD j = (acc.getLsbD j || (b && decide (i = j))) := by
  have h : (1#8 <<< i.val).getLsbD j.val = decide (i = j) := by revert i j; decide
  cases b
  · simp [accumulate]
  · simp only [accumulate, if_true, BitVec.getLsbD_or, h, Bool.true_and]

/-! ### The sampling procedure -/

/-- The accumulator of R87 after the reads of `is`, the first of them with the k-th coming answer. -/
def rawFrom (tbl : Vector LineSlot 8) (f : Nat → LineAnswer) : List (Fin 8) → Nat → Value → Value
  | [], _, acc => acc
  | i :: is, k, acc => rawFrom tbl f is (k + 1) (accumulate acc i.val (slotActive tbl[i] (f k)))

/-- The transactions of the reads of `is`, the first of them with the k-th coming answer. -/
def readsFrom (tbl : Vector LineSlot 8) (f : Nat → LineAnswer) : List (Fin 8) → Nat → List LineTxn
  | [], _ => []
  | i :: is, k => slotRead tbl[i] (f k) :: readsFrom tbl f is (k + 1)

theorem rawFrom_shift (tbl : Vector LineSlot 8) (f g : Nat → LineAnswer) (h : ∀ k, g k = f (k + 1)) :
    ∀ (is : List (Fin 8)) (k : Nat) (acc : Value), rawFrom tbl g is k acc = rawFrom tbl f is (k + 1) acc
  | [], _, _ => rfl
  | i :: is, k, acc => by simp only [rawFrom, h k, rawFrom_shift tbl f g h is]

theorem readsFrom_shift (tbl : Vector LineSlot 8) (f g : Nat → LineAnswer) (h : ∀ k, g k = f (k + 1)) :
    ∀ (is : List (Fin 8)) (k : Nat), readsFrom tbl g is k = readsFrom tbl f is (k + 1)
  | [], _ => rfl
  | i :: is, k => by simp only [readsFrom, h k, readsFrom_shift tbl f g h is]

/-- All that the loop of R87 can do. -/
theorem sampleLoop_eq : ∀ (is : List (Fin 8)) (acc : Value) (s : State),
    sampleLoop is acc s =
      (rawFrom s.line (answerAt s) is 0 acc,
        { s with
          answers := s.answers.drop is.length
          draws := s.draws + is.length
          trace := s.trace ++ readsFrom s.line (answerAt s) is 0 })
  | [], acc, s => by simp [sampleLoop, rawFrom, readsFrom]
  | i :: is, acc, s => by
    have hk : ∀ k, answerAt (issue (slotRead s.line[i] (answerAt s 0)) (consumeAnswer s)) k = answerAt s (k + 1) :=
      fun k => answerAt_consumeAnswer s k
    rw [sampleLoop, readActive_eq, sampleLoop_eq is]
    simp only [issue_line, consumeAnswer_line, rawFrom_shift _ _ _ hk, readsFrom_shift _ _ _ hk, rawFrom, readsFrom,
      issue_trace, consumeAnswer_trace, issue_answers, consumeAnswer_answers, issue_draws, consumeAnswer_draws,
      List.length_cons, List.append_assoc, List.singleton_append, List.drop_tail]
    simp only [issue, consumeAnswer, Prod.mk.injEq, State.mk.injEq, true_and, and_true]
    omega

theorem rawFrom_getLsbD (tbl : Vector LineSlot 8) (f : Nat → LineAnswer) {n : Nat} (hn : n ≤ 8) (j : Fin 8) :
    (rawFrom tbl f (slotsBelow n) 0 0).getLsbD j = (decide (j.val < n) && slotActive tbl[j] (f j.val)) := by
  have h0 : slotsBelow 0 = [] := by decide
  have h1 : slotsBelow 1 = [0] := by decide
  have h2 : slotsBelow 2 = [0, 1] := by decide
  have h3 : slotsBelow 3 = [0, 1, 2] := by decide
  have h4 : slotsBelow 4 = [0, 1, 2, 3] := by decide
  have h5 : slotsBelow 5 = [0, 1, 2, 3, 4] := by decide
  have h6 : slotsBelow 6 = [0, 1, 2, 3, 4, 5] := by decide
  have h7 : slotsBelow 7 = [0, 1, 2, 3, 4, 5, 6] := by decide
  have h8 : slotsBelow 8 = [0, 1, 2, 3, 4, 5, 6, 7] := by decide
  interval_cases n <;> simp only [h0, h1, h2, h3, h4, h5, h6, h7, h8, rawFrom, getLsbD_accumulate] <;> fin_cases j <;> simp

theorem readsFrom_slotsBelow (tbl : Vector LineSlot 8) (f : Nat → LineAnswer) {n : Nat} (hn : n ≤ 8) :
    readsFrom tbl f (slotsBelow n) 0 = ((List.finRange 8).take n).map fun i => slotRead tbl[i] (f i.val) := by
  interval_cases n <;> rfl

/-- All that the sampling procedure can do: its raw sample is the one the slots and the coming answers give, and it takes
one answer and leaves one transaction per configured line. -/
theorem sample_spec (s : State) :
    IsRawSample s (sample s).1 ∧
      (sample s).2 = { afterReads s with trace := s.trace ++ samplingTrace s } := by
  have hn : s.count.toNat ≤ 8 := (count_lt s).le
  constructor
  · intro j
    rw [sample, sampleLoop_eq]
    exact rawFrom_getLsbD _ _ hn j
  · rw [sample, sampleLoop_eq, readsFrom_slotsBelow _ _ hn, length_slotsBelow hn]
    rfl

theorem isRawSample_unique {s : State} {a b : Value} (ha : IsRawSample s a) (hb : IsRawSample s b) : a = b := by
  apply BitVec.eq_of_getLsbD_eq
  intro i hi
  exact (ha ⟨i, hi⟩).trans (hb ⟨i, hi⟩).symm

/-! ### The conversion -/

theorem toBinary_zero : toBinary 0 = 0 := by decide

theorem toBinary_toGray (b : Value) : toBinary (toGray b) = b := by
  revert b; decide

theorem toGray_toBinary (g : Value) : toGray (toBinary g) = g := by
  revert g; decide

/-! ### The line set-ups of CONFIGURE -/

theorem setUpSlot_eq (i : Fin 8) (id : Nat) (s : State) :
    setUpSlot i id s =
      { s with
        line := s.line.set i (resolveSlot s.params id (unusedThreshold s i))
        written := s.written.set i true
        trace := s.trace ++ [.setup id (capabilityKind (platformKind s.params id))] } := rfl

theorem unusedThreshold_lt (s : State) (i : Fin 8) : unusedThreshold s i < 2 ^ s.params.widths.adcBits :=
  Nat.mod_lt _ (by positivity)

/-- What a resolved slot is, case by case (R24, R82). -/
theorem resolveSlot_eq (p : Config.Params) (id : Nat) (unused : Nat) :
    resolveSlot p id unused =
      match platformKind p id with
      | .digitalLine => ⟨id, .digitalLine, unused⟩
      | .thresholdAnalogLine threshold => ⟨id, .thresholdAnalogLine, threshold⟩ := by
  unfold resolveSlot
  cases platformKind p id <;> rfl

/-- All that the loop of R80 can do. -/
theorem setUpLoop_eq (lines : Vector Nat 8) : ∀ (is : List (Fin 8)) (s : State),
    setUpLoop lines is s =
      { s with
        line := Vector.ofFn fun i : Fin 8 => if i ∈ is then resolveSlot s.params lines[i] (unusedThreshold s i) else s.line[i]
        written := Vector.ofFn fun i : Fin 8 => decide (i ∈ is) || s.written[i]
        trace := s.trace ++ is.map fun i => .setup lines[i] (capabilityKind (platformKind s.params lines[i])) }
  | [], s => by
    simp only [setUpLoop, List.not_mem_nil, if_false, decide_false, Bool.false_or, List.map_nil, List.append_nil]
    have hl : (Vector.ofFn fun i : Fin 8 => s.line[i]) = s.line := by ext i hi : 1; simp
    have hw : (Vector.ofFn fun i : Fin 8 => s.written[i]) = s.written := by ext i hi : 1; simp
    rw [hl, hw]
  | j :: is, s => by
    rw [setUpLoop, setUpLoop_eq lines is, setUpSlot_eq]
    simp only [List.mem_cons, List.map_cons, List.append_assoc, List.singleton_append, State.mk.injEq, true_and, and_true]
    refine ⟨?_, ?_⟩
    · ext i hi : 1
      simp only [Vector.getElem_ofFn, Fin.getElem_fin, Vector.getElem_set]
      by_cases hij : j.val = i
      · subst hij; by_cases hm : j ∈ is <;> simp [hm, unusedThreshold]
      · have : ¬ (⟨i, hi⟩ : Fin 8) = j := fun h => hij (by simp [← h])
        simp [hij, this, unusedThreshold]
    · ext i hi : 1
      simp only [Vector.getElem_ofFn, Fin.getElem_fin, Vector.getElem_set]
      by_cases hij : j.val = i
      · subst hij; simp
      · have : ¬ (⟨i, hi⟩ : Fin 8) = j := fun h => hij (by simp [← h])
        simp [hij, this]

theorem mem_slotsBelow (n : Nat) (i : Fin 8) : i ∈ slotsBelow n ↔ i.val < n := by
  simp [slotsBelow]

/-- All that the line set-ups of an accepted CONFIGURE can do. -/
theorem setUpLines_spec (count : Nat) (lines : Vector Nat 8) (s : State) (h : count < 8) :
    setUpLines count lines s =
      { s with
        line := Vector.ofFn fun i : Fin 8 => if i.val < count then resolveSlot s.params lines[i] (unusedThreshold s i)
          else s.line[i]
        written := Vector.ofFn fun i : Fin 8 => decide (i.val < count) || s.written[i]
        trace := s.trace ++ (lines.toList.take count).map
          fun id => .setup id (capabilityKind (platformKind s.params id)) } := by
  rw [setUpLines, setUpLoop_eq]
  simp only [mem_slotsBelow, State.mk.injEq, true_and, and_true]
  rw [slotsBelow_eq_take h.le, show lines.toList = (List.finRange 8).map fun i => lines[i] from ?_,
    ← List.map_take, List.map_map]
  · rfl
  · apply List.ext_getElem <;> simp

theorem storedCount_toNat {count : Nat} (h : count < 8) : (storedCount count).toNat = count := by
  simp only [storedCount, BitVec.toNat_ofNat]
  omega

end Sys2Proof.Machine
end

