-- ==== Sys2Proof/Laws/PerInstr.lean ====
section
/-! SUPPORT. Statements made per operation. -/

namespace Sys2Proof.Laws.EncodesOpCode

/-- The request word of an operation carries the operation's code in field `op`, whatever the widths (R62, R63). -/
def Statement (i : Instr) : Prop := ∀ c : Config.Widths, ReqWord.op (encode c i) = i.opCode

/-- Field `op` is the lowest of the fields that encode packs. -/
theorem op_encode (c : Config.Widths) (i : Instr) : ReqWord.op (encode c i) = i.opCode := by
  have h := i.opCode.isLt
  rw [ReqWord.op, encode, field_packFields_head, Nat.mod_eq_of_lt h, BitVec.ofNat_toNat, BitVec.setWidth_eq]

theorem configure (count : Nat) (lines : Vector Nat 8) (invert : BitVec 1) :
    Statement (.configure count lines invert) := fun c => op_encode c _

theorem sample : Statement .sample := fun c => op_encode c _

theorem tobinary (gray : Value) (bw : BitVec 4) : Statement (.tobinary gray bw) := fun c => op_encode c _

theorem getvalue : Statement .getvalue := fun c => op_encode c _

end Sys2Proof.Laws.EncodesOpCode
end

