-- ==== Sys2Proof/Laws/Step.lean ====
section
/-! SUPPORT. What a step can do, said once. -/

namespace Sys2Proof.Machine

/-- A step that answers a next state was idle, performed a request, or reset. -/
theorem step_cases {s t : State} (h : step s = .next t) :
    (s.host = [] ∧ t = idle s)
      ∨ (∃ w rest, s.host = .request w :: rest ∧ exec (decodeRequest s.params.widths w) (takeEvent s) = .next t)
      ∨ (∃ rest, s.host = .rst :: rest ∧ t = assertRst (takeEvent s)) := by
  unfold step at h
  split at h
  · cases h
    exact .inl ⟨‹_›, rfl⟩
  · exact .inr (.inl ⟨_, _, ‹_›, h⟩)
  · cases h
    exact .inr (.inr ⟨_, ‹_›, rfl⟩)
  · cases h

theorem sameConfiguration_refl (s : State) : SameConfiguration s s := ⟨rfl, rfl, rfl, rfl, rfl, rfl, rfl⟩

theorem SameConfiguration.trans {s t u : State} (h : SameConfiguration s t) (k : SameConfiguration t u) :
    SameConfiguration s u := by
  obtain ⟨a1, a2, a3, a4, a5, a6, a7⟩ := h
  obtain ⟨b1, b2, b3, b4, b5, b6, b7⟩ := k
  exact ⟨b1.trans a1, b2.trans a2, b3.trans a3, b4.trans a4, b5.trans a5, b6.trans a6, b7.trans a7⟩

/-- The invariant speaks of the configuration only. -/
theorem SameConfiguration.blockInv {s t : State} (h : SameConfiguration s t) (hi : BlockInv s) : BlockInv t := by
  obtain ⟨h1, h2, h3, h4, h5, h6, h7⟩ := h
  obtain ⟨a, b, c, d, e, f, g, i⟩ := hi
  constructor <;> simp only [h1, h2, h3, h4, h5, h6, h7] <;> assumption

/-- An idle block stays idle, and touches no line. -/
theorem runTrace_idle (n : Nat) (s : State) (h : s.host = []) : runTrace n s = [] := by
  induction n generalizing s with
  | zero => rfl
  | succ n ih =>
    simp only [runTrace, step, h]
    rw [ih (idle s) h]
    rfl

end Sys2Proof.Machine
end

