-- ==== Sys2Proof/Machine/Text.lean ====
section
/-! DEFINITION. The textual forms of R72: operations, responses, line-side traces. -/

namespace Sys2Proof.Machine

/-- Items separated by commas, each after the first set off by `sep`. -/
def joinText (sep : String) : List String → String
  | [] => ""
  | [x] => x
  | x :: y :: rest => x ++ sep ++ joinText sep (y :: rest)

/-- An operation as R72 writes it. -/
def operationText : OpText → String
  | .configure count ids invert =>
    "CONFIGURE " ++ toString count ++ ", [" ++ joinText "," (ids.map toString) ++ "], " ++ toString invert
  | .sample => "SAMPLE"
  | .tobinary gray bw => "TOBINARY " ++ toString gray ++ ", " ++ toString bw
  | .getvalue => "GETVALUE"

/-- A response as R72 writes it: `-> value=<v> err=<e>`. -/
def responseText (r : RspWord) : String :=
  "-> value=" ++ toString (rspValue r).toNat ++ " err=" ++ (if rspErr r then "1" else "0")

/-- The letter of a variant in a trace: D for digital, A for analog (R72). -/
def lineKindText : LineKind → String
  | .digitalLine => "D"
  | .thresholdAnalogLine => "A"

/-- A line transaction as R72 writes it: `S(4,D)`, `D(4)=1`, `A(17)=980`. -/
def lineTxnText : LineTxn → String
  | .setup id kind => "S(" ++ toString id ++ "," ++ lineKindText kind ++ ")"
  | .readDigital id result => "D(" ++ toString id ++ ")=" ++ toString result.toNat
  | .readAnalog id result => "A(" ++ toString id ++ ")=" ++ toString result

/-- A line-side trace as R72 writes it. -/
def traceText (t : List LineTxn) : String :=
  "[" ++ joinText ", " (t.map lineTxnText) ++ "]"

end Sys2Proof.Machine
end

