-- ==== Sys2Proof/Tests/Slice0.lean ====
section
/-! SUPPORT. Tests: decoding of words the spec writes out, the checks of WellFormed, single steps of the programs of
95_test_vectors.md, and a witness for the hypotheses of every statement that has some. -/

namespace Sys2Proof.Tests

open Sys2Proof Sys2Proof.Machine

/-! ### Helpers -/

/-- The response of an outcome. -/
def responseOf : Host.Outcome State Fault Refusal → Option RspWord
  | .next t => t.rsp
  | .fault _ => none
  | .refused _ => none

/-- The line-side trace of an outcome's step. -/
def traceOf : Host.Outcome State Fault Refusal → List LineTxn
  | .next t => t.trace
  | .fault _ => []
  | .refused _ => []

/-- One digital answer, the level given. -/
def lvl (b : Level) : LineAnswer := ⟨b, 0⟩

/-- One analog answer, the counts given. -/
def cnt (r : Nat) : LineAnswer := ⟨0, r⟩

/-- A READY block of `n` digital lines with the identifiers given, and the answers its reads will get. -/
def readyDigital (n : BitVec 3) (ids : Vector Nat 8) (answers : List LineAnswer) : State :=
  { State.reset with
    constructed := true
    count := n
    line := Vector.ofFn fun i => ⟨ids[i], .digitalLine, 0⟩
    written := Vector.ofFn fun i => decide (i.val < n.toNat)
    answers := answers }

/-- Configuration A of section 2.3: four digital lines 4, 5, 12, 13. -/
def configurationA (answers : List LineAnswer) : State :=
  readyDigital 4 #v[4, 5, 12, 13, 0, 0, 0, 0] answers

/-- Configuration C of section 2.3: one analog line 17 with threshold 977. -/
def configurationC (reading : Nat) : State :=
  { readyDigital 1 #v[17, 0, 0, 0, 0, 0, 0, 0] [cnt reading] with
    line := (Vector.replicate 8 LineSlot.atReset).set 0 ⟨17, .thresholdAnalogLine, 977⟩ }

/-- Program 3 of section 3 configured: line 17 analog with threshold 977, then the digital lines 5 and 4. -/
def configurationMixed (answers : List LineAnswer) : State :=
  { readyDigital 3 #v[17, 5, 4, 0, 0, 0, 0, 0] answers with
    line := #v[⟨17, .thresholdAnalogLine, 977⟩, ⟨5, .digitalLine, 0⟩, ⟨4, .digitalLine, 0⟩, LineSlot.atReset,
      LineSlot.atReset, LineSlot.atReset, LineSlot.atReset, LineSlot.atReset] }

/-- Configuration C on a platform of 4096 counts (R153), with a threshold of its own. -/
def configurationWide (reading : Nat) : State :=
  { readyDigital 1 #v[17, 0, 0, 0, 0, 0, 0, 0] [cnt reading] with
    params := { widths := { adcBits := 12 }, analogLines := [(17, some 3900)] }
    line := (Vector.replicate 8 LineSlot.atReset).set 0 ⟨17, .thresholdAnalogLine, 3900⟩ }

/-- The block after a rejected CONFIGURE. -/
def errorState : State := { State.reset with constructed := true, err := true }

/-- The platform of program 3: line 17 is analog with threshold 977. -/
def analogPlatform : Config.Params := { analogLines := [(17, some 977)] }

/-! ### Widths (R5, R62, R66) -/

theorem test_widths_of_the_words :
    ({} : Config.Widths).reqBits = 71 ∧ RspWord = BitVec Config.rspBits ∧ Value = BitVec Config.maxBits :=
  ⟨by decide, rfl, rfl⟩

/-- R62: the narrowest request word has 15 bits. -/
theorem test_width_of_the_narrowest_request : ({ lineIdBits := 1 } : Config.Widths).reqBits = 15 := by decide

/-! ### Decoding (section 2.5; the expected words are the spec's) -/

theorem test_decode_configure :
    decodeRequest {} 0x0403830282018100C0 = .configure 8 #v[1, 2, 3, 4, 5, 6, 7, 8] 0 := by decide

theorem test_decode_configure_invert :
    decodeRequest {} 0x202889C = .configure 3 #v[17, 5, 4, 0, 0, 0, 0, 0] 1 := by decide

theorem test_decode_sample_with_junk : decodeRequest {} 0xFD = .sample := by decide

theorem test_decode_tobinary : decodeRequest {} 0x3E02 = .tobinary 128 15 := by decide

/-- R62 at `COUNT_BITS = 5`, `LINE_ID_BITS = 4`, by hand: count 3 at `[7:3]`, identifiers 1, 2, 3 from bit 8 on. -/
theorem test_decode_configure_at_other_widths :
    decodeRequest { countBits := 5, lineIdBits := 4 } 0x32118 = .configure 3 #v[1, 2, 3, 0, 0, 0, 0, 0] 0
      ∧ encode { countBits := 5, lineIdBits := 4 } (.configure 3 #v[1, 2, 3, 0, 0, 0, 0, 0] 0) = 0x32118 := by decide

theorem test_decode_getvalue_with_junk : decodeRequest {} 0x7FFFFFFFFFFFFFFFFF = .getvalue := by decide

theorem test_encode_configure : encode {} (.configure 4 #v[4, 5, 12, 13, 0, 0, 0, 0] 0) = 0x686028220 := by decide

theorem test_encode_tobinary : encode {} (.tobinary 10 4) = 0x102A := by decide

theorem test_table_word_is_decoded : decodeTableWord 72 0x102A = some (.tobinary 10 4) := by decide

theorem test_table_word_is_fetched :
    (State.reset.withFetchWord 72 0x102A).host = [.request 0x102A] := by decide

theorem test_no_bytes_are_too_short : (match decode {} [] with | .error e => some e | .ok _ => none) = some .tooShort := by
  decide

theorem test_ten_bytes_are_too_long :
    (match decode {} (List.replicate 10 0) with | .error e => some e | .ok _ => none) = some .tooLong := by decide

/-! ### WellFormed: an ill-formed term for each check, refused -/

theorem test_wf_refuses_narrow_count_field : Config.Params.wf { widths := { countBits := 3 } } = false := by decide
theorem test_wf_refuses_identifier_field_of_no_bits : Config.Params.wf { widths := { lineIdBits := 0 } } = false := by decide
theorem test_wf_refuses_reading_of_no_bits :
    Config.Params.wf { widths := { adcBits := 0 }, thresholdDefault := 0 } = false := by decide
theorem test_wf_refuses_wide_default_threshold : Config.Params.wf { thresholdDefault := 1024 } = false := by decide
theorem test_wf_refuses_wide_listed_identifier : Config.Params.wf { analogLines := [(256, none)] } = false := by decide
theorem test_wf_refuses_wide_listed_threshold : Config.Params.wf { analogLines := [(17, some 1024)] } = false := by decide
theorem test_wf_accepts_4096_counts : (configurationWide 0).params.wf = true := by decide
theorem test_wf_refuses_operation_with_wide_count : (Instr.configure 16 (Vector.replicate 8 0) 0).wf {} = false := by decide
theorem test_wf_refuses_operation_with_wide_identifier :
    (Instr.configure 1 #v[0, 0, 0, 0, 0, 0, 0, 256] 0).wf {} = false := by decide
theorem test_wf_accepts_rejected_count : (Instr.configure 15 (Vector.replicate 8 255) 1).wf {} = true := by decide
theorem test_wf_refuses_wide_count : (OpText.configure 16 [1] 0).wf {} = false := by decide
theorem test_wf_refuses_wide_invert : (OpText.configure 1 [1] 2).wf {} = false := by decide
theorem test_wf_refuses_nine_lines : (OpText.configure 8 [1, 2, 3, 4, 5, 6, 7, 8, 9] 0).wf {} = false := by decide
theorem test_wf_refuses_wide_identifier : (OpText.configure 1 [256] 0).wf {} = false := by decide
theorem test_wf_refuses_missing_lines : (OpText.configure 3 [1, 2] 0).wf {} = false := by decide
theorem test_wf_refuses_wide_gray : (OpText.tobinary 256 0).wf {} = false := by decide
theorem test_wf_refuses_wide_bw : (OpText.tobinary 0 16).wf {} = false := by decide
theorem test_wf_accepts_rejected_count_without_lines : (OpText.configure 8 [] 0).wf {} = true := by decide
theorem test_duty_refuses_count_zero : (Instr.configure 0 (Vector.replicate 8 0) 0).hostDuty = false := by decide
theorem test_duty_refuses_count_eight : (Instr.configure 8 #v[1, 2, 3, 4, 5, 6, 7, 8] 0).hostDuty = false := by decide
theorem test_duty_refuses_repeated_line : (Instr.configure 2 #v[5, 5, 0, 0, 0, 0, 0, 0] 0).hostDuty = false := by decide
theorem test_duty_accepts_four_lines : (Instr.configure 4 #v[4, 5, 12, 13, 0, 0, 0, 0] 0).hostDuty = true := by decide

theorem test_text_assembles :
    (OpText.configure 4 [4, 5, 12, 13] 0).assemble {} = some (.configure 4 #v[4, 5, 12, 13, 0, 0, 0, 0] 0) := by decide

theorem test_text_of_operation : operationText (.configure 4 [4, 5, 12, 13] 0) = "CONFIGURE 4, [4,5,12,13], 0" := by
  decide

theorem test_text_of_response : responseText 0x12A = "-> value=42 err=1" := by decide

theorem test_text_of_trace :
    traceText [.setup 4 .digitalLine, .setup 17 .thresholdAnalogLine, .readDigital 4 1, .readAnalog 17 980]
      = "[S(4,D), S(17,A), D(4)=1, A(17)=980]" := by decide

/-! ### CONFIGURE (section 2.1) -/

theorem test_configure_three_lines_on_analog_platform :
    traceOf (exec (.configure 3 #v[17, 5, 4, 0, 0, 0, 0, 0] 1) { State.reset with params := analogPlatform })
      = [.setup 17 .thresholdAnalogLine, .setup 5 .digitalLine, .setup 4 .digitalLine] := by decide

theorem test_configure_eight_lines_is_rejected :
    responseOf (step (State.reset.withFetchWord 72 0x0403830282018100C0)) = some 0x100 := by decide

/-- R24: what the slots hold after the same CONFIGURE, the digital slots' thresholds apart, which the spec leaves open. -/
theorem test_configure_writes_the_slots :
    (match exec (.configure 3 #v[17, 5, 4, 0, 0, 0, 0, 0] 1) { State.reset with params := analogPlatform } with
      | .next t => t.line[0] = ⟨17, .thresholdAnalogLine, 977⟩ ∧ t.line[1].id = 5 ∧ t.line[1].kind = .digitalLine
      | .fault _ => False
      | .refused _ => False) := ⟨rfl, rfl, rfl⟩

/-! ### SAMPLE (section 2.3) -/

theorem test_sample_low_high_low_high :
    responseOf (exec .sample (configurationA [lvl 0, lvl 1, lvl 0, lvl 1])) = some 0x00A := by decide

theorem test_sample_analog_at_the_threshold :
    responseOf (exec .sample (configurationC 977)) = some 0
      ∧ responseOf (exec .sample (configurationC 978)) = some 1 := by decide

/-- R89, R153: 4096 counts, readings by hand about a threshold of 3900. -/
theorem test_sample_on_4096_counts :
    responseOf (exec .sample (configurationWide 3900)) = some 0
      ∧ responseOf (exec .sample (configurationWide 4095)) = some 1 := by decide

/-! ### TOBINARY (section 2.2) -/

theorem test_tobinary_ten : responseOf (exec (.tobinary 10 0) State.reset) = some 0x00C := by decide

theorem test_tobinary_in_error_state : responseOf (exec (.tobinary 10 4) errorState) = some 0x10C := by decide

/-! ### GETVALUE (section 3) -/

theorem test_getvalue_program_one_step_four :
    responseOf (exec .getvalue (configurationA [lvl 0, lvl 1, lvl 1, lvl 1])) = some 0x00B
      ∧ traceOf (exec .getvalue (configurationA [lvl 0, lvl 1, lvl 1, lvl 1]))
        = [.readDigital 4 0, .readDigital 5 1, .readDigital 12 1, .readDigital 13 1] := by decide

theorem test_getvalue_in_error_state :
    responseOf (exec .getvalue errorState) = some 0x12A ∧ traceOf (exec .getvalue errorState) = [] := by decide

/-! ### Witnesses: a state and operands that meet a statement's hypotheses -/

theorem witness_DecodeOfEncodeIsIdentity :
    ({} : Config.Widths).legal = true ∧ (Instr.configure 15 (Vector.replicate 8 255) 1).wf {} = true
      ∧ ({ countBits := 5, lineIdBits := 1 } : Config.Widths).legal = true
      ∧ (Instr.configure 31 (Vector.replicate 8 1) 1).wf { countBits := 5, lineIdBits := 1 } = true := by decide

theorem witness_OperandsAreUnsignedSlicesOfTheRequest :
    (0x202889C : Nat) % 4 = 0 ∧ (0xFD : Nat) % 4 = 1 ∧ (0x3E02 : Nat) % 4 = 2
      ∧ (0x7FFFFFFFFFFFFFFFFF : Nat) % 4 = 3 := by decide

theorem witness_UnusedRequestBitsAreIgnored :
    (0x102A : Nat) % 2 ^ ReqWord.usedWidth {} 0x102A = 0x4000102A % 2 ^ ReqWord.usedWidth {} 0x102A
      ∧ (0xFD : Nat) % 4 = 1 ∧ (1 : Nat) % 4 = 1 ∧ (3 : Nat) % 4 = 3
      ∧ (0x7FFFFFFFFFFFFFFFFF : Nat) % 4 = 3 := by decide

theorem witness_ConfigureTextAssembles :
    (OpText.configure 7 [1, 2, 3, 4, 5, 6, 7] 1).wf {} = true ∧ (OpText.configure 15 [] 0).wf {} = true := by decide

theorem witness_StepPerformsThePresentedRequest :
    (State.reset.withFetchWord 72 3).host = .request 3 :: [] := by decide

theorem witness_StepWithoutARequest :
    State.reset.host = []
      ∧ { State.reset with host := [.breach (.requestDuringReset 3)] }.host = .breach (.requestDuringReset 3) :: [] := by
  decide

theorem witness_ResetClearsTheBlock : { errorState with host := [.rst] }.host = .rst :: [] := by decide

theorem reset_blockInv : BlockInv State.reset where
  count_legal := by decide
  err_constructed := by decide
  unconstructed_clear := by decide
  read_slots_written := by decide
  other_slots_unwritten := by decide
  written_slots_resolved := by simp [State.reset]
  slots_fit := by decide
  params_wf := by decide

theorem witness_EveryStepKeepsTheInvariant :
    BlockInv State.reset ∧ ∃ t, step State.reset = .next t := ⟨reset_blockInv, _, rfl⟩

theorem witness_ConstructedConfigurationIsImmutable :
    (configurationA []).constructed = true ∧ (∀ rest, (configurationA []).host ≠ .rst :: rest)
      ∧ ∃ t, step (configurationA []) = .next t := by
  refine ⟨by decide, ?_, _, rfl⟩
  intro rest h
  cases h

theorem witness_OperationsMoveBetweenPhasesAsTabled :
    (configurationA []).constructed = true ∧ errorState.constructed = true
      ∧ phase State.reset = some .unconstructed := by decide

theorem witness_ErrorStateLatches :
    errorState.constructed = true ∧ errorState.err = true
      ∧ 2 ≤ { errorState with host := [.request 3, .request 0x102A] }.host.length
      ∧ OnlyRequests ({ errorState with host := [.request 3, .request 0x102A] }.host.take 2)
      ∧ { errorState with host := [.request 3, .request 0x102A] }.host[1]? = some (.request 0x102A)
      ∧ decodeRequest {} 3 = .getvalue ∧ decodeRequest {} 0x102A = .tobinary 10 4 := by
  refine ⟨rfl, rfl, by decide, ?_, rfl, by decide, by decide⟩
  intro e he
  simp only [List.take_succ_cons, List.take_zero, List.mem_cons, List.not_mem_nil, or_false] at he
  rcases he with rfl | rfl <;> exact ⟨_, rfl⟩

theorem witness_MisconfiguredBlockNeverTouchesALine :
    State.reset.constructed = false ∧ 8 ≤ 8 ∧ (Instr.configure 8 (Vector.replicate 8 1) 0).wf State.reset.params.widths = true
      ∧ { State.reset with
          host := [.request (encode {} (.configure 8 (Vector.replicate 8 1) 0)), .request 3] }.host
        = .request (encode State.reset.params.widths (.configure 8 (Vector.replicate 8 1) 0)) :: [.request 3]
      ∧ OnlyRequests [.request 3] := by
  refine ⟨rfl, by decide, by decide, rfl, ?_⟩
  intro e he
  rw [List.mem_singleton] at he
  exact ⟨3, he⟩

theorem witness_CountIsRejectedExactlyFromEight :
    State.reset.constructed = false ∧ State.reset.err = false := by decide

theorem witness_FirstConfigureStoresOrLatches : State.reset.constructed = false ∧ 7 < 8 ∧ 0 < 8 ∧ 8 ≤ 8 ∧ 8 ≤ 15 := by
  decide

theorem witness_LaterConfigureIsIgnored : (configurationA []).constructed = true ∧ errorState.constructed = true := by
  decide

theorem witness_UnusedLineOperandsAreIgnored :
    2 < 8 ∧ ∀ i : Fin 8, i.val < 2 →
      (#v[1, 2, 9, 9, 9, 9, 9, 9] : Vector Nat 8)[i] = (#v[1, 2, 0, 0, 0, 0, 0, 0] : Vector Nat 8)[i] := by decide

theorem witness_PlatformKindAndItsDefaults :
    (∀ e ∈ analogPlatform.analogLines, e.1 ≠ 5)
      ∧ { analogPlatform with analogLines := [(3, none), (17, some 977), (17, none)] }.analogLines
        = [(3, none)] ++ (17, some 977) :: [(17, none)]
      ∧ ∀ e ∈ [((3, none) : Nat × Option Nat)], e.1 ≠ 17 := by decide

theorem witness_VariantIsResolvedOnce : (configurationC 977).constructed = true := by decide

theorem witness_SampleReadsEveryConfiguredLineInOrder :
    (configurationA []).err = false ∧ (0 : Fin 8).val < (configurationA []).count.toNat
      ∧ ¬ (4 : Fin 8).val < (configurationA []).count.toNat := by decide

theorem witness_DigitalLineIsActiveWhenHigh :
    (configurationA []).err = false ∧ (3 : Fin 8).val < (configurationA []).count.toNat
      ∧ (configurationA []).line[3].kind = .digitalLine := by decide

theorem witness_AnalogLineIsActiveAboveItsThreshold :
    (configurationC 977).err = false ∧ (0 : Fin 8).val < (configurationC 977).count.toNat
      ∧ (configurationC 977).line[0].kind = .thresholdAnalogLine ∧ (configurationC 977).line[0].threshold = 977
      ∧ (configurationC 977).params.widths.adcBits = 10
      ∧ (answerAt (configurationC 977) 0).analog ≤ 977 ∧ 978 ≤ (answerAt (configurationC 978) 0).analog := by decide

theorem witness_AnalogReadingsAreOfAdcBitsBits :
    LineTxn.readAnalog 17 1023 ∈ traceOf (exec .sample (configurationC 1023)) := by decide

theorem witness_RawSampleIsBelowTwoToTheCount : (configurationA []).err = false := by decide

theorem witness_SampleInErrorStateTouchesNoLine : errorState.err = true := by decide

theorem witness_SwappingTwoLinesSwapsTheirBits :
    let s := configurationA [lvl 0, lvl 1, lvl 0, lvl 1]
    let s' := readyDigital 4 #v[5, 4, 12, 13, 0, 0, 0, 0] [lvl 1, lvl 0, lvl 0, lvl 1]
    let level : Nat → LineAnswer := fun id => if id = 5 ∨ id = 13 then lvl 1 else lvl 0
    s.err = false ∧ s'.err = false ∧ s'.count = s.count ∧ (0 : Fin 8).val < s.count.toNat
      ∧ (1 : Fin 8).val < s.count.toNat ∧ s'.line = (s.line.set 0 s.line[1]).set 1 s.line[0]
      ∧ (∀ k : Fin 8, k.val < s.count.toNat → answerAt s k.val = level s.line[k].id)
      ∧ ∀ k : Fin 8, k.val < s.count.toNat → answerAt s' k.val = level s'.line[k].id := by decide

theorem witness_OperationsBeforeConfigureTouchNoLine : BlockInv State.reset ∧ State.reset.constructed = false :=
  ⟨reset_blockInv, rfl⟩

theorem witness_ConversionLoopStopsAfterTheHighestBit :
    7 + 1 ≤ 8 ∧ 2 ^ 7 ≤ (128 : Value).toNat ∧ (255 : Value).toNat < 2 ^ (7 + 1) ∧ 0 + 1 ≤ 1
      ∧ 2 ^ 0 ≤ (1 : Value).toNat ∧ (1 : Value).toNat < 2 ^ (0 + 1) := by decide

theorem witness_ConversionKeepsTheHighestBit :
    2 ^ (7 : Fin 8).val ≤ (128 : Value).toNat ∧ (255 : Value).toNat < 2 ^ ((7 : Fin 8).val + 1) := by decide

theorem witness_GetvalueAnswersTheSentinelOrTheConvertedSample :
    errorState.err = true ∧ (configurationC 978).err = false := by decide

theorem witness_GetvalueIsBelowTwoToTheCount :
    (readyDigital 7 #v[1, 2, 3, 4, 5, 6, 7, 0] []).err = false := by decide

theorem witness_EveryValueBelowTwoToTheCountIsReachable :
    let s := configurationMixed []
    s.err = false ∧ (∀ i : Fin 8, i.val < s.count.toNat → s.line[i].kind = .thresholdAnalogLine →
        s.line[i].threshold < 2 ^ s.params.widths.adcBits - 1)
      ∧ (7 : Value).toNat < 2 ^ s.count.toNat := by decide

theorem witness_GetvalueIsIdempotent :
    let s := configurationA [lvl 0, lvl 1, lvl 0, lvl 1, lvl 0, lvl 1, lvl 0, lvl 1]
    s.constructed = true ∧ ∃ t, execAll [.getvalue] s = .next t
      ∧ ∀ k, k < s.count.toNat → answerAt t k = answerAt s k := by
  refine ⟨by decide, _, rfl, ?_⟩
  decide

theorem witness_MovingWheelReadsOneOfTwoAdjacentPositions :
    let s := configurationMixed [cnt 978, lvl 1, lvl 1]
    s.err = false ∧ (4 : Value).toNat < 2 ^ s.count.toNat
      ∧ (5 : Value).toNat = ((4 : Value).toNat + 1) % 2 ^ s.count.toNat
      ∧ (0 : Value).toNat = ((7 : Value).toNat + 1) % 2 ^ s.count.toNat
      ∧ ∀ i : Fin 8, i.val < s.count.toNat →
        slotActive s.line[i] (answerAt s i.val) = (toGray 4).getLsbD i.val
          ∨ slotActive s.line[i] (answerAt s i.val) = (toGray 5).getLsbD i.val := by decide

theorem witness_ConfigureThenGetvalueReadsTheConfiguredLines :
    let lines : Vector Nat 8 := #v[4, 5, 12, 13, 0, 0, 0, 0]
    let s : State := { State.reset with
      host := [.request (encode {} (.configure 4 lines 0)), .request (encode {} .getvalue)]
      answers := [lvl 0, lvl 1, lvl 0, lvl 1] }
    let level : Nat → LineAnswer := fun id => if id = 5 ∨ id = 13 then lvl 1 else lvl 0
    s.constructed = false ∧ s.err = false ∧ 4 < 8 ∧ (Instr.configure 4 lines 0).wf s.params.widths = true
      ∧ s.host = .request (encode s.params.widths (.configure 4 lines 0))
        :: .request (encode s.params.widths .getvalue) :: []
      ∧ ∀ k : Fin 8, k.val < 4 → answerAt s k.val = level lines[k] := by decide

theorem witness_UnconfiguredSlotsAreNeverRead :
    ∀ k : Fin 8, k.val < (configurationA []).count.toNat →
      ((configurationA []).line.set 7 ⟨200, .thresholdAnalogLine, 5⟩)[k] = (configurationA []).line[k] := by decide

theorem witness_ThresholdOfADigitalSlotIsUnused :
    ∀ k : Fin 8, k.val < (configurationMixed []).count.toNat →
      SameToReads ((configurationMixed []).line.set 1 ⟨5, .digitalLine, 1023⟩)[k] (configurationMixed []).line[k] := by
  unfold SameToReads
  decide

end Sys2Proof.Tests
end

section
/-! SUPPORT. The fields of a request word as slices, the decoder's one equation per operation code, and the settling of
the statements on operands and on unused bits (R62, R63, R67, R68). -/

namespace Sys2Proof

/-! ### Fields as slices of the word -/

theorem ReqWord.toNat_ofNat_field (w lo len : Nat) :
    (BitVec.ofNat len (ReqWord.field w lo len)).toNat = w / 2 ^ lo % 2 ^ len := by
  rw [BitVec.toNat_ofNat, field_eq, Nat.mod_mod]

@[simp] theorem ReqWord.toNat_op (w : Nat) : (ReqWord.op w).toNat = w % 4 :=
  (ReqWord.toNat_ofNat_field w 0 2).trans (by simp)

@[simp] theorem ReqWord.toNat_invert (w : Nat) : (ReqWord.invert w).toNat = w / 2 ^ 2 % 2 :=
  ReqWord.toNat_ofNat_field w 2 1

@[simp] theorem ReqWord.toNat_gray (w : Nat) : (ReqWord.gray w).toNat = w / 2 ^ 2 % 2 ^ 8 :=
  ReqWord.toNat_ofNat_field w 2 8

@[simp] theorem ReqWord.toNat_bw (w : Nat) : (ReqWord.bw w).toNat = w / 2 ^ 10 % 2 ^ 4 :=
  ReqWord.toNat_ofNat_field w 10 4

theorem ReqWord.getElem_lines (c : Config.Widths) (w : Nat) (i : Fin 8) :
    (ReqWord.lines c w)[i] = ReqWord.line c w i.val := by
  simp [ReqWord.lines]

/-! ### One equation per operation code (R63) -/

/-- The operation code is the word modulo 4. -/
theorem ReqWord.op_eq_iff (w : Nat) (k : BitVec 2) : ReqWord.op w = k ↔ w % 4 = k.toNat := by
  rw [← BitVec.toNat_inj, ReqWord.toNat_op]

/-- All four codes are used, and there is no other (R68). -/
theorem ReqWord.op_cases (w : Nat) :
    ReqWord.op w = 0b00#2 ∨ ReqWord.op w = 0b01#2 ∨ ReqWord.op w = 0b10#2 ∨ ReqWord.op w = 0b11#2 := by
  simp only [ReqWord.op_eq_iff, BitVec.toNat_ofNat]
  omega

section
variable (c : Config.Widths) {w : Nat}

theorem decodeRequest_of_op_configure (h : ReqWord.op w = 0b00#2) :
    decodeRequest c w = .configure (ReqWord.count c w) (ReqWord.lines c w) (ReqWord.invert w) := by
  simp [decodeRequest, h]

theorem decodeRequest_of_op_sample (h : ReqWord.op w = 0b01#2) : decodeRequest c w = .sample := by
  simp [decodeRequest, h]

theorem decodeRequest_of_op_tobinary (h : ReqWord.op w = 0b10#2) :
    decodeRequest c w = .tobinary (ReqWord.gray w) (ReqWord.bw w) := by
  simp [decodeRequest, h]

theorem decodeRequest_of_op_getvalue (h : ReqWord.op w = 0b11#2) : decodeRequest c w = .getvalue := by
  simp [decodeRequest, h]

theorem usedWidth_of_op_configure (h : ReqWord.op w = 0b00#2) : ReqWord.usedWidth c w = c.reqBits := by
  simp [ReqWord.usedWidth, h]

theorem usedWidth_of_op_tobinary (h : ReqWord.op w = 0b10#2) : ReqWord.usedWidth c w = 14 := by
  simp [ReqWord.usedWidth, h]

end

theorem reqBits_eq (c : Config.Widths) : c.reqBits = 3 + c.countBits + 8 * c.lineIdBits := rfl

/-- Field `op` is among the used bits of every format (R62). -/
theorem two_le_usedWidth (c : Config.Widths) (w : Nat) : 2 ≤ ReqWord.usedWidth c w := by
  rw [ReqWord.usedWidth, reqBits_eq]
  split_ifs <;> omega

/-- The format depends on the operation code alone. -/
theorem usedWidth_congr_op (c : Config.Widths) {w w' : Nat} (h : ReqWord.op w = ReqWord.op w') :
    ReqWord.usedWidth c w = ReqWord.usedWidth c w' := by
  rw [ReqWord.usedWidth, ReqWord.usedWidth, h]

/-! ### Fields of a word cut to its low bits -/

/-- A field that lies in the low `n` bits does not see the bits above them: it is the top of the low `lo + len` bits. -/
theorem ReqWord.field_mod_two_pow {lo len n : Nat} (w : Nat) (h : lo + len ≤ n) :
    ReqWord.field (w % 2 ^ n) lo len = ReqWord.field w lo len := by
  have top (v : Nat) : ReqWord.field v lo len = v % 2 ^ (lo + len) / 2 ^ lo := by
    rw [field_eq, Nat.pow_add, Nat.mod_mul_right_div_self]
  rw [top, top, Nat.mod_mod_of_dvd _ (Nat.pow_dvd_pow 2 h)]

theorem ReqWord.op_mod_two_pow {n : Nat} (w : Nat) (h : 2 ≤ n) : ReqWord.op (w % 2 ^ n) = ReqWord.op w := by
  rw [ReqWord.op, ReqWord.field_mod_two_pow w h, ← ReqWord.op]

section
variable (c : Config.Widths) (w : Nat)

/-- Every `line_i` lies below `W_REQ` (R62). -/
theorem line_end_le_reqBits (i : Fin 8) : 3 + c.countBits + c.lineIdBits * i.val + c.lineIdBits ≤ c.reqBits := by
  have hi : c.lineIdBits * (i.val + 1) ≤ c.lineIdBits * 8 := Nat.mul_le_mul_left _ i.isLt
  rw [Nat.mul_add_one] at hi
  rw [reqBits_eq]
  omega

/-- `W_REQ` bits hold every operand of a CONFIGURE (R62). -/
theorem configureOperands_mod_reqBits :
    ReqWord.count c (w % 2 ^ c.reqBits) = ReqWord.count c w
      ∧ ReqWord.lines c (w % 2 ^ c.reqBits) = ReqWord.lines c w
      ∧ ReqWord.invert (w % 2 ^ c.reqBits) = ReqWord.invert w := by
  have hcount : 3 + c.countBits ≤ c.reqBits := by rw [reqBits_eq]; omega
  have hinvert : 2 + 1 ≤ c.reqBits := by omega
  exact ⟨ReqWord.field_mod_two_pow w hcount,
    congrArg Vector.ofFn (funext fun i => ReqWord.field_mod_two_pow w (line_end_le_reqBits c i)),
    congrArg (BitVec.ofNat 1) (ReqWord.field_mod_two_pow w hinvert)⟩

/-- Fourteen bits hold both operands of a TOBINARY (R62). -/
theorem tobinaryOperands_mod :
    ReqWord.gray (w % 2 ^ 14) = ReqWord.gray w ∧ ReqWord.bw (w % 2 ^ 14) = ReqWord.bw w :=
  ⟨congrArg (BitVec.ofNat 8) (ReqWord.field_mod_two_pow w (by decide : 2 + 8 ≤ 14)),
    congrArg (BitVec.ofNat 4) (ReqWord.field_mod_two_pow w (by decide : 10 + 4 ≤ 14))⟩

/-- The decoder looks at the bits the word's format uses and at no others (R67, R68, U8). -/
theorem decodeRequest_mod_usedWidth :
    decodeRequest c (w % 2 ^ ReqWord.usedWidth c w) = decodeRequest c w := by
  have hop := ReqWord.op_mod_two_pow w (two_le_usedWidth c w)
  rcases ReqWord.op_cases w with h | h | h | h <;> rw [h] at hop
  · obtain ⟨hcount, hlines, hinvert⟩ := configureOperands_mod_reqBits c w
    rw [decodeRequest_of_op_configure c hop, decodeRequest_of_op_configure c h, usedWidth_of_op_configure c h,
      hcount, hlines, hinvert]
  · rw [decodeRequest_of_op_sample c hop, decodeRequest_of_op_sample c h]
  · obtain ⟨hgray, hbw⟩ := tobinaryOperands_mod w
    rw [decodeRequest_of_op_tobinary c hop, decodeRequest_of_op_tobinary c h, usedWidth_of_op_tobinary c h, hgray, hbw]
  · rw [decodeRequest_of_op_getvalue c hop, decodeRequest_of_op_getvalue c h]

end

/-- Words that agree on the bits the first one's format uses have the same format, and so decode alike. -/
theorem decodeRequest_congr_usedBits (c : Config.Widths) {w w' : Nat}
    (h : w % 2 ^ ReqWord.usedWidth c w = w' % 2 ^ ReqWord.usedWidth c w) : decodeRequest c w' = decodeRequest c w := by
  have hop : ReqWord.op w = ReqWord.op w' := by
    rw [← ReqWord.op_mod_two_pow w (two_le_usedWidth c w), h, ReqWord.op_mod_two_pow w' (two_le_usedWidth c w)]
  calc decodeRequest c w'
      _ = decodeRequest c (w' % 2 ^ ReqWord.usedWidth c w') := (decodeRequest_mod_usedWidth c w').symm
      _ = decodeRequest c (w % 2 ^ ReqWord.usedWidth c w) := by rw [← usedWidth_congr_op c hop, h]
      _ = decodeRequest c w := decodeRequest_mod_usedWidth c w

/-- Settles O3: the decoder's equation at each of the four codes, and each of its fields as a slice. -/
theorem operandsAreUnsignedSlicesOfTheRequest : Obligations.OperandsAreUnsignedSlicesOfTheRequest := by
  intro c w
  have code (k : BitVec 2) : w % 4 = k.toNat → ReqWord.op w = k := (ReqWord.op_eq_iff w k).mpr
  refine ⟨fun h => ?_, fun h => ?_, fun h => ?_, fun h => ?_⟩
  · refine ⟨_, _, _, decodeRequest_of_op_configure c (code 0 h), ReqWord.toNat_invert w, field_eq w _ _, fun i => ?_⟩
    rw [ReqWord.getElem_lines, ReqWord.line, field_eq]
  · exact decodeRequest_of_op_sample c (code 1 h)
  · exact ⟨_, _, decodeRequest_of_op_tobinary c (code 2 h), ReqWord.toNat_gray w, ReqWord.toNat_bw w⟩
  · exact decodeRequest_of_op_getvalue c (code 3 h)

/-- Settles O4: the decoder sees the used bits only; that the code alone gives SAMPLE and GETVALUE is O3. -/
theorem unusedRequestBitsAreIgnored : Obligations.UnusedRequestBitsAreIgnored := by
  intro c w w'
  obtain ⟨-, sample, -, getvalue⟩ := operandsAreUnsignedSlicesOfTheRequest c w
  obtain ⟨-, sample', -, getvalue'⟩ := operandsAreUnsignedSlicesOfTheRequest c w'
  exact ⟨decodeRequest_congr_usedBits c, fun h h' => ⟨sample h, sample' h'⟩, fun h h' => ⟨getvalue h, getvalue' h'⟩⟩

end Sys2Proof
end

section
/-! SUPPORT. What CONFIGURE and SAMPLE do, one equation per case of each, and the settling of the statements on the count
check, on a later CONFIGURE and on the bits of digital lines (R80 to R88). -/

namespace Sys2Proof.Machine

/-! ### The cases of CONFIGURE (R80) -/

section
variable {count : Nat} {s : State} (lines : Vector Nat 8) (invert : BitVec 1)

/-- R84, R128: the `constructed` test comes first, so the count does not matter. -/
theorem exec_configure_of_constructed (count : Nat) (hs : s.constructed = true) :
    exec (.configure count lines invert) s = .next (respond 0 (beginOperation s)) :=
  if_pos hs

/-- R82, R122: a rejected first CONFIGURE takes the ConfigurationError and does nothing else. -/
theorem exec_configure_of_rejected (hs : s.constructed = false) (hcount : 8 ≤ count) :
    exec (.configure count lines invert) s = .next (respond 0 (takeConfigurationError (beginOperation s))) := by
  have hrejected : countRejected count = true := decide_eq_true hcount
  simp [exec, execConfigure, hs, hrejected]

/-- R82: an accepted first CONFIGURE stores its operands, then sets the lines up. -/
theorem exec_configure_of_accepted (hs : s.constructed = false) (hcount : count < 8) :
    exec (.configure count lines invert) s =
      .next (respond 0 (setUpLines count lines (storeConfiguration count invert (beginOperation s)))) := by
  have haccepted : countRejected count = false := decide_eq_false (Nat.not_le.mpr hcount)
  simp [exec, execConfigure, hs, haccepted]

end

/-- Setting lines up leaves the error flag alone (R82). -/
theorem setUpLines_err {count : Nat} (lines : Vector Nat 8) (s : State) (hcount : count < 8) :
    (setUpLines count lines s).err = s.err := by
  rw [setUpLines_spec count lines s hcount]

/-- Settles O19: a rejected CONFIGURE sets `err`, and an accepted one leaves it as it was. -/
theorem countIsRejectedExactlyFromEight : Obligations.CountIsRejectedExactlyFromEight := by
  intro count lines invert s hs herr
  rcases Nat.lt_or_ge count 8 with hcount | hcount
  · refine ⟨_, exec_configure_of_accepted lines invert hs hcount, ?_⟩
    simp [setUpLines_err lines _ hcount, herr, hcount]
  · refine ⟨_, exec_configure_of_rejected lines invert hs hcount, ?_⟩
    simp [hcount]

/-- Settles O21: beginning an operation clears the trace, and responding presents the flag as it is. -/
theorem laterConfigureIsIgnored : Obligations.LaterConfigureIsIgnored :=
  fun count lines invert _ hs => exec_configure_of_constructed lines invert count hs

/-! ### SAMPLE without error (R85, R87) -/

/-- Beginning the operation changes nothing that the sampling procedure looks at. -/
theorem isRawSample_beginOperation (s : State) (raw : Value) :
    IsRawSample (beginOperation s) raw ↔ IsRawSample s raw := Iff.rfl

/-- All that SAMPLE can do when `err = 0`: respond with the raw sample after one read per configured line. -/
theorem exec_sample_of_err_false {s : State} (herr : s.err = false) :
    ∃ raw, IsRawSample s raw ∧ exec .sample s =
      .next { afterReads s with rsp := some (responseWord raw false), trace := samplingTrace s } := by
  obtain ⟨hraw, hreads⟩ := sample_spec (beginOperation s)
  refine ⟨_, (isRawSample_beginOperation s _).mp hraw, ?_⟩
  have hbranch : exec .sample s = .next (respond (sample (beginOperation s)).1 (sample (beginOperation s)).2) :=
    if_neg (by simp [herr])
  rw [hbranch, hreads, ← herr]
  rfl

/-- The bit of a configured line says whether its read was active (R87). -/
theorem IsRawSample.getLsbD_of_configured {s : State} {raw : Value} (hraw : IsRawSample s raw) {i : Fin 8}
    (hi : i.val < s.count.toNat) : raw.getLsbD i.val = slotActive s.line[i] (answerAt s i.val) := by
  rw [hraw i, decide_eq_true hi, Bool.true_and]

/-- R88: the threshold of a digital slot has no part in it. -/
theorem slotActive_digital_iff {slot : LineSlot} (hkind : slot.kind = .digitalLine) (a : LineAnswer) :
    slotActive slot a = true ↔ a.digital = 1 := by
  simp [slotActive, hkind, digitalActive]

/-- Settles O26: the bit is the slot's activity, which for a digital slot is the level of its read. -/
theorem digitalLineIsActiveWhenHigh : Obligations.DigitalLineIsActiveWhenHigh := by
  intro s i herr hi hkind
  obtain ⟨raw, hraw, hexec⟩ := exec_sample_of_err_false herr
  refine ⟨_, raw, hexec, rfl, ?_⟩
  rw [hraw.getLsbD_of_configured hi, slotActive_digital_iff hkind]

end Sys2Proof.Machine
end

section
/-! SUPPORT. What TOBINARY does, the conversion of a single set bit, and the settling of the statements on them
(R100, R106, R107). -/

namespace Sys2Proof.Machine

/-- R100, R103: all that TOBINARY can do; neither `bw` nor the state has a part in the value. -/
theorem exec_tobinary (gray : Value) (bw : BitVec 4) (s : State) :
    exec (.tobinary gray bw) s = .next (respond (toBinary gray) (beginOperation s)) := rfl

/-- Settles O33: beginning an operation clears the trace, and responding presents the flag as it is. -/
theorem tobinaryConvertsInEveryPhase : Obligations.TobinaryConvertsInEveryPhase :=
  exec_tobinary

/-! ### A single set bit (R106) -/

/-- The value with bits 0 to `k` set and no other. -/
def lowOnes (k : Nat) : Value :=
  BitVec.ofNat 8 (2 ^ (k + 1) - 1)

theorem lowOnes_toNat {k : Nat} (hk : k < 8) : (lowOnes k).toNat = 2 ^ (k + 1) - 1 := by
  have hle : 2 ^ (k + 1) ≤ 2 ^ 8 := Nat.pow_le_pow_right (by decide) hk
  have hpos : 0 < 2 ^ (k + 1) := Nat.two_pow_pos _
  rw [lowOnes, BitVec.toNat_ofNat, Nat.mod_eq_of_lt (by omega)]

theorem lowOnes_getLsbD {k : Nat} (hk : k < 8) (j : Nat) : (lowOnes k).getLsbD j = decide (j ≤ k) := by
  rw [BitVec.getLsbD, lowOnes_toNat hk, Nat.testBit_two_pow_sub_one]
  simp only [Nat.lt_succ_iff]

theorem toGray_getLsbD (b : Value) (j : Nat) : (toGray b).getLsbD j = (b.getLsbD j ^^ b.getLsbD (j + 1)) := by
  rw [toGray, BitVec.getLsbD_xor, BitVec.getLsbD_ushiftRight, Nat.add_comm 1 j]

/-- In the ones from bit `k` down, bit `k` is the only one that differs from the bit above it. -/
theorem toGray_lowOnes {k : Nat} (hk : k < 8) : toGray (lowOnes k) = 1#8 <<< k := by
  apply BitVec.eq_of_getLsbD_eq
  intro j hj
  rw [toGray_getLsbD, lowOnes_getLsbD hk, lowOnes_getLsbD hk, ← BitVec.twoPow_eq, BitVec.getLsbD_twoPow]
  rcases Nat.lt_trichotomy j k with h | h | h
  · simp [h.le, Nat.succ_le_of_lt h, h.ne']
  · simp [h, hk]
  · simp [h.not_ge, h.ne, h.le]

/-- The conversion undoes `toGray`, so a single set bit fills downward. -/
theorem toBinary_singleBit {k : Nat} (hk : k < 8) : toBinary (1#8 <<< k) = lowOnes k := by
  rw [← toGray_lowOnes hk, toBinary_toGray]

/-- Settles O37: the conversion of bit `k` alone, as a number and bit by bit. -/
theorem singleSetBitFillsDownward : Obligations.SingleSetBitFillsDownward := by
  intro k
  rw [toBinary_singleBit k.isLt]
  exact ⟨lowOnes_toNat k.isLt, fun j => lowOnes_getLsbD k.isLt j.val⟩

/-! ### The required identities (R107) -/

/-- Settles O38: the values 8 and 10 are the Gray codes of 15 and 12, so the round trip gives their conversions. -/
theorem grayRoundTrips : Obligations.GrayRoundTrips := by
  have gray_fifteen : toGray 0b1111 = 0b1000 := by decide
  have gray_twelve : toGray 0b1100 = 0b1010 := by decide
  refine ⟨toBinary_zero, ?_, ?_, toBinary_toGray⟩
  · rw [← gray_fifteen, toBinary_toGray]
  · rw [← gray_twelve, toBinary_toGray]

end Sys2Proof.Machine
end

section
/-! SUPPORT. Encoding after decoding and decoding after encoding, the assembly of a CONFIGURE text, the two fields of a
response word, and the settling of the statements on them (R61 to R68, R72). -/

namespace Sys2Proof

/-! ### Encoding what a word decodes to (R62, R67, R68) -/

/-- Fields of one width read one after another: the i-th begins `len * i` bits up. -/
theorem readFields_replicate (w len n lo : Nat) :
    readFields w lo (List.replicate n len) = List.ofFn fun i : Fin n => (len, ReqWord.field w (lo + len * i) len) := by
  induction n generalizing lo with
  | zero => rfl
  | succ n ih =>
    simp only [List.replicate_succ, readFields, ih, List.ofFn_succ, Fin.val_zero, Nat.mul_zero, Nat.add_zero,
      Fin.val_succ, Nat.mul_add_one, Nat.add_assoc, Nat.add_comm len]

section
variable (c : Config.Widths) {w : Nat}

theorem opCode_decodeRequest (w : Nat) : (decodeRequest c w).opCode.toNat = ReqWord.field w 0 2 := by
  have hop : (decodeRequest c w).opCode = ReqWord.op w := by
    rcases ReqWord.op_cases w with h | h | h | h <;> simp [decodeRequest, h, Instr.opCode]
  rw [hop, ReqWord.op, ReqWord.toNat_ofNat_field, field_eq]

/-- The operands of a decoded CONFIGURE are the fields of the word from bit 2 on. -/
theorem operandFields_decoded_configure (h : ReqWord.op w = 0b00#2) :
    (decodeRequest c w).operandFields c = readFields w 2 (1 :: c.countBits :: List.replicate 8 c.lineIdBits) := by
  have hinvert : (ReqWord.invert w).toNat = ReqWord.field w 2 1 := (ReqWord.toNat_ofNat_field w 2 1).trans (field_eq w 2 1).symm
  rw [decodeRequest_of_op_configure c h, readFields, readFields, readFields_replicate]
  simp only [Instr.operandFields, hinvert, ReqWord.count, ReqWord.lines, ReqWord.line, Vector.toList_ofFn, List.map_ofFn]
  rfl

/-- The operands of a decoded TOBINARY are the fields of the word from bit 2 on. -/
theorem operandFields_decoded_tobinary (h : ReqWord.op w = 0b10#2) :
    (decodeRequest c w).operandFields c = readFields w 2 [8, 4] := by
  have hgray : (ReqWord.gray w).toNat = ReqWord.field w 2 8 := (ReqWord.toNat_gray w).trans (field_eq w 2 8).symm
  have hbw : (ReqWord.bw w).toNat = ReqWord.field w 10 4 := (ReqWord.toNat_bw w).trans (field_eq w 10 4).symm
  rw [decodeRequest_of_op_tobinary c h, Instr.operandFields, hgray, hbw]
  rfl

/-- Encoding packs `op` and the operands; packing what was read one after another gives the bits that were read. -/
theorem encode_decodeRequest_of_readFields {lens : List Nat}
    (h : (decodeRequest c w).operandFields c = readFields w 2 lens) :
    encode c (decodeRequest c w) = w % 2 ^ (2 + lens.sum) := by
  have hread : (2, ReqWord.field w 0 2) :: readFields w 2 lens = readFields w 0 (2 :: lens) := rfl
  rw [encode, opCode_decodeRequest, h, hread, packFields_readFields, field_eq, Nat.pow_zero, Nat.div_one, List.sum_cons]

theorem encode_decodeRequest (w : Nat) : encode c (decodeRequest c w) = w % 2 ^ ReqWord.usedWidth c w := by
  rcases ReqWord.op_cases w with h | h | h | h
  · rw [encode_decodeRequest_of_readFields c (operandFields_decoded_configure c h), usedWidth_of_op_configure c h]
    congr 2
    simp only [List.sum_cons, List.sum_replicate, smul_eq_mul, reqBits_eq]
    omega
  · rw [encode_decodeRequest_of_readFields (lens := []) c (by rw [decodeRequest_of_op_sample c h]; rfl)]
    simp [ReqWord.usedWidth, h]
  · rw [encode_decodeRequest_of_readFields c (operandFields_decoded_tobinary c h), usedWidth_of_op_tobinary c h]
    rfl
  · rw [encode_decodeRequest_of_readFields (lens := []) c (by rw [decodeRequest_of_op_getvalue c h]; rfl)]
    simp [ReqWord.usedWidth, h]

end

/-- Settles O2: the used bits are what encoding gives back, and the operation code says how many they are. -/
theorem encodeOfDecodeKeepsTheUsedBits : Obligations.EncodeOfDecodeKeepsTheUsedBits := by
  intro c w
  refine ⟨encode_decodeRequest c w, ?_⟩
  simp only [ReqWord.usedWidth, ReqWord.op_eq_iff, reqBits_eq]
  rfl

/-- What a well-formed CONFIGURE's operands are below (R62). -/
theorem wf_configure_iff (c : Config.Widths) (count : Nat) (lines : Vector Nat 8) (invert : BitVec 1) :
    (Instr.configure count lines invert).wf c = true
      ↔ count < 2 ^ c.countBits ∧ ∀ i : Fin 8, lines[i] < 2 ^ c.lineIdBits := by
  simp [Instr.wf, Fin.forall_iff]

/-- Settles O5: every operand is a field of the word, and a field is below two to its width. -/
theorem decodedOperationsAreWellFormed : Obligations.DecodedOperationsAreWellFormed := by
  intro c w
  rcases ReqWord.op_cases w with h | h | h | h
  · rw [decodeRequest_of_op_configure c h]
    refine (wf_configure_iff _ _ _ _).mpr ⟨field_lt _ _ _, fun i => ?_⟩
    rw [ReqWord.getElem_lines]
    exact field_lt _ _ _
  · rw [decodeRequest_of_op_sample c h]; rfl
  · rw [decodeRequest_of_op_tobinary c h]; rfl
  · rw [decodeRequest_of_op_getvalue c h]; rfl

/-! ### Decoding an encoded operation (R62 to R65) -/

theorem fieldsWidth_map (len : Nat) (vs : List Nat) :
    fieldsWidth (vs.map fun v => (len, v)) = len * vs.length := by
  induction vs with
  | nil => rfl
  | cons v vs ih => simp only [List.map_cons, fieldsWidth, ih, List.length_cons, Nat.mul_add_one, Nat.add_comm len]

section
variable (c : Config.Widths) (count : Nat) (lines : Vector Nat 8) (invert : BitVec 1)

theorem count_encode_configure : ReqWord.count c (encode c (.configure count lines invert)) = count % 2 ^ c.countBits :=
  field_packFields [(2, 0), (1, invert.toNat)] c.countBits count _

theorem invert_encode_configure : ReqWord.invert (encode c (.configure count lines invert)) = invert := by
  have hfield : ReqWord.field (encode c (.configure count lines invert)) 2 1 = invert.toNat % 2 :=
    field_packFields [(2, 0)] 1 invert.toNat _
  rw [ReqWord.invert, hfield, Nat.mod_eq_of_lt invert.isLt, BitVec.ofNat_toNat, BitVec.setWidth_eq]

/-- Before the i-th identifier stand `op`, `invert`, `count` and `i` identifiers. -/
theorem line_encode_configure (i : Fin 8) :
    ReqWord.line c (encode c (.configure count lines invert)) i.val = lines[i] % 2 ^ c.lineIdBits := by
  have hi : i.val < lines.toList.length := by simp
  have hsplit : lines.toList = lines.toList.take i.val ++ lines[i] :: lines.toList.drop (i.val + 1) := by
    rw [show lines[i] = lines.toList[i.val] by simp, ← List.drop_eq_getElem_cons hi, List.take_append_drop]
  have hfields : encode c (.configure count lines invert)
      = packFields (((2, 0) :: (1, invert.toNat) :: (c.countBits, count)
          :: (lines.toList.take i.val).map fun id => (c.lineIdBits, id))
        ++ (c.lineIdBits, lines[i]) :: (lines.toList.drop (i.val + 1)).map fun id => (c.lineIdBits, id)) := by
    rw [encode, Instr.operandFields]
    conv_lhs => rw [hsplit, List.map_append, List.map_cons]
    rfl
  have hwidth : fieldsWidth ((2, 0) :: (1, invert.toNat) :: (c.countBits, count)
      :: (lines.toList.take i.val).map fun id => (c.lineIdBits, id)) = 3 + c.countBits + c.lineIdBits * i.val := by
    simp only [fieldsWidth, fieldsWidth_map, List.length_take, Nat.min_eq_left hi.le]
    omega
  rw [ReqWord.line, hfields, ← hwidth, field_packFields]

theorem decodeRequest_encode_configure (hwf : (Instr.configure count lines invert).wf c = true) :
    decodeRequest c (encode c (.configure count lines invert)) = .configure count lines invert := by
  obtain ⟨hcount, hlines⟩ := (wf_configure_iff c count lines invert).mp hwf
  rw [decodeRequest_of_op_configure c (Laws.EncodesOpCode.configure count lines invert c), count_encode_configure,
    invert_encode_configure, Nat.mod_eq_of_lt hcount]
  congr 1
  ext k hk
  have hline := line_encode_configure c count lines invert ⟨k, hk⟩
  rw [Nat.mod_eq_of_lt (hlines ⟨k, hk⟩)] at hline
  exact (ReqWord.getElem_lines c _ ⟨k, hk⟩).trans hline

end

theorem decodeRequest_encode_tobinary (c : Config.Widths) (gray : Value) (bw : BitVec 4) :
    decodeRequest c (encode c (.tobinary gray bw)) = .tobinary gray bw := by
  have hgray : ReqWord.field (encode c (.tobinary gray bw)) 2 8 = gray.toNat % 2 ^ 8 :=
    field_packFields [(2, 2)] 8 gray.toNat _
  have hbw : ReqWord.field (encode c (.tobinary gray bw)) 10 4 = bw.toNat % 2 ^ 4 :=
    field_packFields [(2, 2), (8, gray.toNat)] 4 bw.toNat []
  rw [decodeRequest_of_op_tobinary c (Laws.EncodesOpCode.tobinary gray bw c), ReqWord.gray, hgray, ReqWord.bw, hbw,
    Nat.mod_eq_of_lt gray.isLt, Nat.mod_eq_of_lt bw.isLt]
  simp

theorem decodeRequest_encode (c : Config.Widths) {i : Instr} (hwf : i.wf c = true) : decodeRequest c (encode c i) = i := by
  cases i with
  | configure count lines invert => exact decodeRequest_encode_configure c count lines invert hwf
  | sample => exact decodeRequest_of_op_sample c (Laws.EncodesOpCode.sample c)
  | tobinary gray bw => exact decodeRequest_encode_tobinary c gray bw
  | getvalue => exact decodeRequest_of_op_getvalue c (Laws.EncodesOpCode.getvalue c)

/-- No format is wider than a request word: a TOBINARY's 14 bits fit because `COUNT_BITS` is at least 4 (R62). -/
theorem fieldsWidth_le_reqBits {c : Config.Widths} (hc : c.legal = true) (i : Instr) :
    fieldsWidth ((2, i.opCode.toNat) :: i.operandFields c) ≤ c.reqBits := by
  simp only [Config.Widths.legal, Bool.and_eq_true, decide_eq_true_eq] at hc
  obtain ⟨⟨hcount, hline⟩, -⟩ := hc
  rw [reqBits_eq]
  cases i with
  | configure count lines invert =>
    simp only [fieldsWidth, Instr.operandFields, fieldsWidth_map, Vector.length_toList]
    omega
  | sample => simp only [fieldsWidth, Instr.operandFields]; omega
  | tobinary gray bw => simp only [fieldsWidth, Instr.operandFields, Config.maxBits]; omega
  | getvalue => simp only [fieldsWidth, Instr.operandFields]; omega

theorem encode_lt {c : Config.Widths} (hc : c.legal = true) (i : Instr) : encode c i < 2 ^ c.reqBits :=
  (packFields_lt _).trans_le (Nat.pow_le_pow_right (by decide) (fieldsWidth_le_reqBits hc i))

/-- A request word at the default widths, handed over as a table word, is decoded as it stands. -/
theorem decodeTableWord_of_lt {w : Nat} (h : w < 2 ^ Config.Widths.reqBits {}) :
    decodeTableWord 71 w = some (decodeRequest {} w) := by
  have hword : wordOfBytes {} (tableWordBytes {} 71 w) = .ok w := wordOfBytes_tableWordBytes {} w h
  rw [decodeTableWord, decode, hword]
  rfl

/-- Settles O1: packed fields are read back where they were put, and the bytes of a word give the word. -/
theorem decodeOfEncodeIsIdentity : Obligations.DecodeOfEncodeIsIdentity := by
  intro c i hc hwf
  refine ⟨encode_lt hc i, decodeRequest_encode c hwf, ?_⟩
  rintro rfl
  rw [decodeTableWord_of_lt (encode_lt hc i), decodeRequest_encode {} hwf]

/-! ### Words written out in the spec (95_test_vectors.md section 2.5) -/

/-- Settles O6: each word is evaluated by the decoder. -/
theorem specRequestWordsDecode : Obligations.SpecRequestWordsDecode := by
  refine ⟨?_, ?_, ?_, ?_, ?_, ?_⟩ <;> decide

/-! ### The text of a CONFIGURE (R72) -/

theorem getElem_lineOperands (ids : List Nat) (i : Fin 8) : (OpText.lineOperands ids)[i] = ids.getD i.val 0 := by
  simp [OpText.lineOperands, OpText.lineOperand]

theorem wfConfigure_iff (c : Config.Widths) (count : Nat) (ids : List Nat) (invert : Nat) :
    (OpText.configure count ids invert).wf c = true
      ↔ count < 2 ^ c.countBits ∧ invert < 2 ∧ ids.length ≤ 8 ∧ (∀ id ∈ ids, id < 2 ^ c.lineIdBits)
        ∧ (8 ≤ count ∨ count ≤ ids.length) := by
  simp [OpText.wf, OpText.wfConfigure, and_assoc]

/-- An operand that no identifier is listed for is 0, which fits every width. -/
theorem lineOperand_lt {ids : List Nat} {bound : Nat} (h : ∀ id ∈ ids, id < bound) (hpos : 0 < bound) (i : Nat) :
    ids.getD i 0 < bound := by
  rcases Nat.lt_or_ge i ids.length with hi | hi
  · rw [List.getD_eq_getElem ids 0 hi]
    exact h _ (List.getElem_mem hi)
  · rwa [List.getD_eq_default ids 0 hi]

/-- Settles O8: the assembled operands are the text's, and each is below the bound the text's check puts on it. -/
theorem configureTextAssembles : Obligations.ConfigureTextAssembles := by
  intro c count ids invert hwf
  obtain ⟨hcount, hinvert, -, hids, -⟩ := (wfConfigure_iff c count ids invert).mp hwf
  refine ⟨OpText.lineOperands ids, BitVec.ofNat 1 invert, if_pos hwf, ?_, ?_, getElem_lineOperands ids⟩
  · refine (wf_configure_iff _ _ _ _).mpr ⟨hcount, fun i => ?_⟩
    rw [getElem_lineOperands]
    exact lineOperand_lt hids (Nat.two_pow_pos _) i.val
  · rw [BitVec.toNat_ofNat, Nat.mod_eq_of_lt hinvert]

/-! ### The response word (R66) -/

namespace Machine

theorem rspValue_responseWord (v : Value) (e : Bool) : rspValue (responseWord v e) = v :=
  BitVec.extractLsb'_append_eq_right

theorem rspErr_responseWord (v : Value) (e : Bool) : rspErr (responseWord v e) = e := by
  rw [rspErr, responseWord, BitVec.getLsbD_append]
  simp

theorem responseWord_toNat (v : Value) (e : Bool) : (responseWord v e).toNat = v.toNat + (if e then 256 else 0) := by
  rw [responseWord, BitVec.toNat_append, ← Nat.shiftLeft_add_eq_or_of_lt v.isLt, Nat.shiftLeft_eq, BitVec.toNat_ofBool,
    Nat.add_comm]
  cases e <;> rfl

/-- Settles O7: `value` is the low part and `err` the bit above it. -/
theorem responseWordHoldsValueAndErr : Obligations.ResponseWordHoldsValueAndErr :=
  fun v e => ⟨rspValue_responseWord v e, rspErr_responseWord v e, responseWord_toNat v e⟩

end Machine

end Sys2Proof
end

section
/-! SUPPORT. What each operation does, said once: the effect it chooses and what each effect does to the state; and the
settling of the statements made of every operation (R12, R44, R66, R69, R82, R157). -/

namespace Sys2Proof.Machine

/-! ### What one sampling procedure depends on -/

/-- The raw sample of a state (R87). -/
def rawSample (s : State) : Value := (sample s).1

theorem isRawSample_rawSample (s : State) : IsRawSample s (rawSample s) := (sample_spec s).1

theorem IsRawSample.eq_rawSample {s : State} {raw : Value} (h : IsRawSample s raw) : raw = rawSample s :=
  isRawSample_unique h (isRawSample_rawSample s)

theorem SameToReads.refl (a : LineSlot) : SameToReads a a := ⟨rfl, rfl, fun _ => rfl⟩

theorem SameToReads.slotActive_eq {a b : LineSlot} (h : SameToReads a b) (x : LineAnswer) :
    slotActive a x = slotActive b x := by
  obtain ⟨-, hkind, hthreshold⟩ := h
  unfold slotActive
  rw [hkind]
  cases hb : b.kind with
  | digitalLine => rfl
  | thresholdAnalogLine => rw [hthreshold hb]

theorem SameToReads.slotRead_eq {a b : LineSlot} (h : SameToReads a b) (x : LineAnswer) :
    slotRead a x = slotRead b x := by
  obtain ⟨hid, hkind, -⟩ := h
  rw [slotRead, slotRead, hid, hkind]

/-- Two states whose sampling procedures cannot be told apart: as many lines, slots that are the same to every read, and
the same answers to them. -/
def ReadsAlike (s s' : State) : Prop :=
  s'.count = s.count ∧ ∀ k : Fin 8, k.val < s.count.toNat →
    SameToReads s'.line[k] s.line[k] ∧ answerAt s' k.val = answerAt s k.val

theorem ReadsAlike.rawSample_eq {s s' : State} (h : ReadsAlike s s') : rawSample s' = rawSample s := by
  obtain ⟨hcount, hreads⟩ := h
  refine (IsRawSample.eq_rawSample fun i => ?_).symm
  rw [isRawSample_rawSample s i, hcount]
  by_cases hi : i.val < s.count.toNat
  · obtain ⟨hslot, hanswer⟩ := hreads i hi
    rw [hanswer, hslot.slotActive_eq]
  · simp [hi]

/-- The slots that are read are those below the count. -/
theorem mem_take_finRange {n : Nat} (hn : n ≤ 8) (i : Fin 8) : i ∈ (List.finRange 8).take n ↔ i.val < n := by
  rw [← slotsBelow_eq_take hn, mem_slotsBelow]

theorem ReadsAlike.samplingTrace_eq {s s' : State} (h : ReadsAlike s s') : samplingTrace s' = samplingTrace s := by
  obtain ⟨hcount, hreads⟩ := h
  rw [samplingTrace, samplingTrace, hcount]
  refine List.map_congr_left fun i hi => ?_
  obtain ⟨hslot, hanswer⟩ := hreads i ((mem_take_finRange (count_lt s).le i).mp hi)
  rw [hanswer, hslot.slotRead_eq]

theorem mem_samplingTrace {s : State} {x : LineTxn} (hx : x ∈ samplingTrace s) :
    ∃ i : Fin 8, x = slotRead s.line[i] (answerAt s i.val) := by
  obtain ⟨i, -, rfl⟩ := List.mem_map.mp hx
  exact ⟨i, rfl⟩

theorem length_samplingTrace (s : State) : (samplingTrace s).length = s.count.toNat := by
  simp [samplingTrace, (count_lt s).le]

/-- A read is no set-up. -/
theorem slotRead_ne_setup (slot : LineSlot) (x : LineAnswer) (id : Nat) (kind : LineKind) :
    slotRead slot x ≠ .setup id kind := by
  unfold slotRead
  split <;> exact LineTxn.noConfusion

/-- What an analog read returns is the analog part of the answer (R44). -/
theorem result_of_slotRead_eq_readAnalog {slot : LineSlot} {x : LineAnswer} {id result : Nat}
    (h : slotRead slot x = .readAnalog id result) : result = x.analog := by
  unfold slotRead at h
  split at h <;> cases h
  rfl

/-! ### The effects (R80, R85, R100, R111) -/

/-- The four things an operation can do. -/
inductive Effect where
  /-- Respond, and nothing else. -/
  | answer (v : Value)
  /-- Read the configured lines and respond (R87). -/
  | reads (v : Value)
  /-- Take the ConfigurationError (R122). -/
  | latch
  /-- Store a configuration and set its lines up (R82). -/
  | setUp (count : Nat) (lines : Vector Nat 8) (invert : BitVec 1)

/-- The state after an effect. -/
def Effect.apply : Effect → State → State
  | .answer v, s => respond v (beginOperation s)
  | .reads v, s => respond v { afterReads s with trace := samplingTrace s }
  | .latch, s => respond 0 (takeConfigurationError (beginOperation s))
  | .setUp count lines invert, s =>
    respond 0 (setUpLines count lines (storeConfiguration count invert (beginOperation s)))

/-- The effect an operation has in a state. -/
def effectOf (i : Instr) (s : State) : Effect :=
  match i with
  | .configure count lines invert =>
    if s.constructed then .answer 0 else if count < 8 then .setUp count lines invert else .latch
  | .sample => if s.err then .answer 0 else .reads (rawSample s)
  | .tobinary gray _ => .answer (toBinary gray)
  | .getvalue => if s.err then .answer s.params.sentinel else .reads (toBinary (rawSample s))

/-- The sampling procedure of an operation that has just begun. -/
theorem sample_beginOperation (s : State) :
    sample (beginOperation s) = (rawSample s, { afterReads s with rsp := none, trace := samplingTrace s }) := by
  obtain ⟨hraw, hreads⟩ := sample_spec (beginOperation s)
  exact Prod.ext ((isRawSample_beginOperation s _).mp hraw).eq_rawSample hreads

/-- All that an operation can do. -/
theorem exec_eq_apply_effectOf (i : Instr) (s : State) : exec i s = .next ((effectOf i s).apply s) := by
  cases i with
  | configure count lines invert =>
    cases hs : s.constructed with
    | true => simp [exec_configure_of_constructed lines invert count hs, effectOf, hs, Effect.apply]
    | false =>
      rcases Nat.lt_or_ge count 8 with hcount | hcount
      · simp [exec_configure_of_accepted lines invert hs hcount, effectOf, hs, hcount, Effect.apply]
      · simp [exec_configure_of_rejected lines invert hs hcount, effectOf, hs, hcount.not_gt, Effect.apply]
  | sample =>
    rw [exec, execSample, sample_beginOperation, effectOf]
    cases s.err <;> rfl
  | tobinary gray bw => rfl
  | getvalue =>
    rw [exec, execGetvalue, sample_beginOperation, effectOf]
    cases s.err <;> rfl

/-- The effect depends on the state through these alone. -/
theorem effectOf_congr (i : Instr) {s s' : State} (hconstructed : s'.constructed = s.constructed) (herr : s'.err = s.err)
    (hsentinel : s'.params.sentinel = s.params.sentinel) (hreads : ReadsAlike s s') : effectOf i s' = effectOf i s := by
  simp only [effectOf, hconstructed, herr, hsentinel, hreads.rawSample_eq]

/-- Which effect an operation has: only a first CONFIGURE does more than read and respond. -/
theorem effectOf_cases (i : Instr) (s : State) :
    (∃ v, effectOf i s = .answer v) ∨ (s.err = false ∧ ∃ v, effectOf i s = .reads v)
      ∨ (s.constructed = false ∧ ∃ count lines invert, i = .configure count lines invert
        ∧ ((8 ≤ count ∧ effectOf i s = .latch) ∨ (count < 8 ∧ effectOf i s = .setUp count lines invert))) := by
  cases i with
  | configure count lines invert =>
    cases hs : s.constructed with
    | true => exact .inl ⟨0, by simp [effectOf, hs]⟩
    | false =>
      refine .inr (.inr ⟨rfl, count, lines, invert, rfl, ?_⟩)
      rcases Nat.lt_or_ge count 8 with hcount | hcount
      · exact .inr ⟨hcount, by simp [effectOf, hs, hcount]⟩
      · exact .inl ⟨hcount, by simp [effectOf, hs, hcount.not_gt]⟩
  | sample =>
    cases herr : s.err with
    | true => exact .inl ⟨0, by simp [effectOf, herr]⟩
    | false => exact .inr (.inl ⟨rfl, _, by simp only [effectOf, herr]; rfl⟩)
  | tobinary gray bw => exact .inl ⟨_, rfl⟩
  | getvalue =>
    cases herr : s.err with
    | true => exact .inl ⟨_, by simp only [effectOf, herr]; rfl⟩
    | false => exact .inr (.inl ⟨rfl, _, by simp only [effectOf, herr]; rfl⟩)

/-! ### What the effects do to the state -/

/-- The set-ups write slots and the trace, and nothing else of the state. -/
theorem setUpLines_frame (count : Nat) (lines : Vector Nat 8) (s : State) :
    (setUpLines count lines s).host = s.host ∧ (setUpLines count lines s).params = s.params := by
  rw [setUpLines, setUpLoop_eq]
  exact ⟨rfl, rfl⟩

theorem Effect.apply_host (e : Effect) (s : State) : (e.apply s).host = s.host := by
  cases e with
  | setUp count lines invert => exact (setUpLines_frame count lines _).1
  | _ => rfl

theorem Effect.apply_params (e : Effect) (s : State) : (e.apply s).params = s.params := by
  cases e with
  | setUp count lines invert => exact (setUpLines_frame count lines _).2
  | _ => rfl

/-- Every effect ends with a response. -/
theorem Effect.apply_rsp (e : Effect) (s : State) : ∃ v, (e.apply s).rsp = some (responseWord v (e.apply s).err) := by
  cases e <;> exact ⟨_, rfl⟩

/-- The trace an effect leaves (R12). -/
theorem Effect.apply_trace (e : Effect) (s : State) :
    (e.apply s).trace =
      match e with
      | .answer _ => []
      | .reads _ => samplingTrace s
      | .latch => []
      | .setUp count lines _ =>
        (slotsBelow count).map fun i => .setup lines[i] (capabilityKind (platformKind s.params lines[i])) := by
  cases e with
  | setUp count lines invert =>
    rw [Effect.apply, respond_trace, setUpLines, setUpLoop_eq]
    rfl
  | _ => rfl

/-- Settles O12: whatever its effect, the operation responds, and no effect touches host or parameters. -/
theorem everyOperationCompletesWithOneResponse : Obligations.EveryOperationCompletesWithOneResponse := by
  intro i s
  obtain ⟨v, hv⟩ := (effectOf i s).apply_rsp s
  exact ⟨_, v, exec_eq_apply_effectOf i s, hv, Effect.apply_host _ s, Effect.apply_params _ s⟩

/-- Settles O28: a trace holds analog reads only after a sampling procedure, whose answers came over `ADC_BITS` wires. -/
theorem analogReadingsAreOfAdcBitsBits : Obligations.AnalogReadingsAreOfAdcBitsBits := by
  intro i s
  refine ⟨_, exec_eq_apply_effectOf i s, fun id result hx => ?_⟩
  rw [Effect.apply_trace] at hx
  cases he : effectOf i s with
  | answer v => simp [he] at hx
  | reads v =>
    rw [he] at hx
    obtain ⟨k, hk⟩ := mem_samplingTrace hx
    rw [result_of_slotRead_eq_readAnalog hk.symm]
    exact answerAt_analog_lt s k.val
  | latch => simp [he] at hx
  | setUp count lines invert => simp [he] at hx

/-! ### How much is issued (R157) -/

/-- SAMPLE and GETVALUE issue a sampling procedure's reads, or nothing in the error state. -/
theorem trace_count_of_reads {e : Effect} {s : State} {v w : Value} (he : e = if s.err then .answer v else .reads w) :
    (e.apply s).trace.length = (if s.err then 0 else s.count.toNat)
      ∧ ∀ x ∈ (e.apply s).trace, ∀ id kind, x ≠ .setup id kind := by
  subst he
  cases s.err with
  | true => exact ⟨rfl, fun x hx => absurd hx List.not_mem_nil⟩
  | false =>
    refine ⟨length_samplingTrace s, fun x hx id kind => ?_⟩
    obtain ⟨i, rfl⟩ := mem_samplingTrace hx
    exact slotRead_ne_setup _ _ id kind

/-- A CONFIGURE issues one set-up per line if it is the first and accepted, and nothing otherwise. -/
theorem trace_count_of_configure (count : Nat) (lines : Vector Nat 8) (invert : BitVec 1) (s : State) :
    ((effectOf (.configure count lines invert) s).apply s).trace.length
        = (if s.constructed = false ∧ count < 8 then count else 0)
      ∧ ∀ x ∈ ((effectOf (.configure count lines invert) s).apply s).trace, ∃ id kind, x = .setup id kind := by
  rw [Effect.apply_trace, effectOf]
  cases s.constructed with
  | true => simp
  | false =>
    by_cases hcount : count < 8
    · simp only [hcount, and_self, if_true, Bool.false_eq_true, if_false, List.length_map, length_slotsBelow hcount.le,
        true_and]
      intro x hx
      obtain ⟨i, -, rfl⟩ := List.mem_map.mp hx
      exact ⟨_, _, rfl⟩
    · simp [hcount]

/-- Settles O50: the trace of the effect each operation has. -/
theorem lineTransactionsAreCounted : Obligations.LineTransactionsAreCounted := by
  intro i s
  refine ⟨_, exec_eq_apply_effectOf i s, ?_⟩
  cases i with
  | configure count lines invert => exact trace_count_of_configure count lines invert s
  | sample => exact trace_count_of_reads rfl
  | tobinary gray bw => rfl
  | getvalue => exact trace_count_of_reads rfl

/-! ### What has no effect (R24, R25, R82) -/

/-- Settles O47: the flag decides no effect, and every effect but a new configuration hands it on. -/
theorem invertChangesNothing : Obligations.InvertChangesNothing := by
  intro i s b
  have heffect : effectOf i { s with invert := b } = effectOf i s :=
    effectOf_congr i rfl rfl rfl ⟨rfl, fun k _ => ⟨SameToReads.refl _, rfl⟩⟩
  refine ⟨_, _, exec_eq_apply_effectOf i s, exec_eq_apply_effectOf i _, ?_⟩
  rw [heffect]
  cases effectOf i s <;> exact ⟨rfl, rfl, rfl⟩

/-- The slots below the count may be replaced by slots that are the same to every read: no operation does anything else, and
the slots stay in whatever relation they were put in. -/
theorem exec_with_slots (R : LineSlot → LineSlot → Prop) (hrefl : ∀ a, R a a) (hsame : ∀ {a b}, R a b → SameToReads a b)
    (i : Instr) (s : State) (slots : Vector LineSlot 8) (h : ∀ k : Fin 8, k.val < s.count.toNat → R slots[k] s.line[k]) :
    ∃ t t', exec i s = .next t ∧ exec i { s with line := slots } = .next t' ∧ { t' with line := t.line } = t
      ∧ ∀ k : Fin 8, k.val < t.count.toNat → R t'.line[k] t.line[k] := by
  have halike : ReadsAlike s { s with line := slots } := ⟨rfl, fun k hk => ⟨hsame (h k hk), rfl⟩⟩
  have heffect : effectOf i { s with line := slots } = effectOf i s := effectOf_congr i rfl rfl rfl halike
  refine ⟨_, _, exec_eq_apply_effectOf i s, exec_eq_apply_effectOf i _, ?_⟩
  rw [heffect]
  cases effectOf i s with
  | answer v => exact ⟨rfl, h⟩
  | reads v =>
    refine ⟨?_, h⟩
    simp only [Effect.apply, halike.samplingTrace_eq]
    rfl
  | latch => exact ⟨rfl, h⟩
  | setUp count lines invert =>
    simp only [Effect.apply, setUpLines, setUpLoop_eq]
    refine ⟨rfl, fun k hk => ?_⟩
    have hcount : k.val < count := hk.trans_le (Nat.mod_le count 8)
    simp only [respond_line, Fin.getElem_fin, Vector.getElem_ofFn, mem_slotsBelow, hcount, if_true]
    exact hrefl _

/-- Settles O48: a slot that is left as it was is the same to every read. -/
theorem unconfiguredSlotsAreNeverRead : Obligations.UnconfiguredSlotsAreNeverRead :=
  exec_with_slots Eq (fun _ => rfl) fun {a _} hab => hab ▸ SameToReads.refl a

/-- Settles O49: being the same to every read says nothing of the threshold of a digital slot. -/
theorem thresholdOfADigitalSlotIsUnused : Obligations.ThresholdOfADigitalSlotIsUnused :=
  exec_with_slots SameToReads SameToReads.refl id

/-- Settles O24: once constructed no operation sets a line up, and nothing else asks the platform. -/
theorem variantIsResolvedOnce : Obligations.VariantIsResolvedOnce := by
  intro i s analogLines thresholdDefault hs
  refine ⟨_, _, exec_eq_apply_effectOf i s, exec_eq_apply_effectOf i _, ?_⟩
  have heffect : effectOf i
      { s with params := { s.params with analogLines := analogLines, thresholdDefault := thresholdDefault } } = effectOf i s :=
    effectOf_congr i rfl rfl rfl ⟨rfl, fun k _ => ⟨SameToReads.refl _, rfl⟩⟩
  rw [heffect]
  rcases effectOf_cases i s with ⟨v, hv⟩ | ⟨-, v, hv⟩ | ⟨hfresh, -⟩
  · rw [hv]; rfl
  · rw [hv]; rfl
  · rw [hs] at hfresh; cases hfresh

end Sys2Proof.Machine
end

section
/-! SUPPORT. The step event by event, what a CONFIGURE leaves in the state, the invariant of R35 along every step, the
lifecycle and the error state; and the settling of the statements on them. -/

namespace Sys2Proof.Machine

/-! ### The step, one equation per event (R69, R140, R145) -/

section
variable {s : State} {rest : List HostEvent}

theorem takeEvent_of_host {e : HostEvent} (h : s.host = e :: rest) : takeEvent s = { s with host := rest } := by
  rw [takeEvent, h, List.tail_cons]

theorem step_of_request {w : Nat} (h : s.host = .request w :: rest) :
    step s = exec (decodeRequest s.params.widths w) { s with host := rest } := by
  rw [← takeEvent_of_host h]
  simp only [step, h]

theorem step_of_rst (h : s.host = .rst :: rest) : step s = .next (assertRst { s with host := rest }) := by
  rw [← takeEvent_of_host h]
  simp only [step, h]

theorem step_of_breach {b : Breach} (h : s.host = .breach b :: rest) : step s = .refused (.hostProtocolBreach b) := by
  simp only [step, h]

theorem step_of_nothing (h : s.host = []) : step s = .next (idle s) := by
  simp only [step, h]

end

/-- Settles O9: the step's equation on a request. -/
theorem stepPerformsThePresentedRequest : Obligations.StepPerformsThePresentedRequest :=
  fun _ _ _ => step_of_request

/-- Settles O10: the step's equations on an empty queue and on a breach. -/
theorem stepWithoutARequest : Obligations.StepWithoutARequest :=
  ⟨fun _ => step_of_nothing, fun _ _ _ => step_of_breach⟩

/-- Settles O11: the step's equation on `rst`, field by field. -/
theorem resetClearsTheBlock : Obligations.ResetClearsTheBlock :=
  fun _ _ h => ⟨_, step_of_rst h, rfl, rfl, rfl, rfl, rfl, rfl, rfl, rfl, rfl, rfl, rfl⟩

/-! ### The platform function (R5, R54) -/

theorem platformKind_of_unlisted {p : Config.Params} {id : Nat} (h : ∀ e ∈ p.analogLines, e.1 ≠ id) :
    platformKind p id = .digitalLine := by
  have hlookup : p.analogLines.lookup id = none :=
    List.lookup_eq_none_iff.mpr fun e he => bne_iff_ne.mpr (h e he).symm
  rw [platformKind, hlookup]

theorem platformKind_of_first_entry {p : Config.Params} {id : Nat} {o : Option Nat} {pre rest : List (Nat × Option Nat)}
    (hlist : p.analogLines = pre ++ (id, o) :: rest) (hpre : ∀ e ∈ pre, e.1 ≠ id) :
    platformKind p id = .thresholdAnalogLine (o.getD p.thresholdDefault) := by
  have hlookup : p.analogLines.lookup id = some o :=
    List.lookup_eq_some_iff.mpr ⟨pre, rest, hlist, fun e he => bne_iff_ne.mpr (hpre e he).symm⟩
  rw [platformKind, hlookup]
  cases o <;> rfl

/-- Settles O23: what looking an identifier up in the list finds, and the values of the parameters after reset. -/
theorem platformKindAndItsDefaults : Obligations.PlatformKindAndItsDefaults :=
  ⟨fun _ _ => platformKind_of_unlisted, fun _ _ _ _ _ => platformKind_of_first_entry, rfl, rfl, rfl, rfl, rfl, rfl, rfl⟩

/-- A threshold that the platform gives is of `ADC_BITS` bits (R5, R24). -/
theorem platformKind_threshold_lt {p : Config.Params} (hp : p.wf = true) {id threshold : Nat}
    (h : platformKind p id = .thresholdAnalogLine threshold) : threshold < 2 ^ p.widths.adcBits := by
  simp only [Config.Params.wf, Bool.and_eq_true, decide_eq_true_eq, List.all_eq_true] at hp
  obtain ⟨⟨-, hdefault⟩, hlisted⟩ := hp
  unfold platformKind at h
  split at h
  next threshold' hlookup =>
    cases h
    obtain ⟨pre, rest, hlist, -⟩ := List.lookup_eq_some_iff.mp hlookup
    have hentry := hlisted (id, some threshold) (by rw [hlist]; exact List.mem_append_right _ List.mem_cons_self)
    simp only [Config.Widths.fitsEntry, Bool.and_eq_true, decide_eq_true_eq] at hentry
    exact hentry.2
  next =>
    cases h
    exact hdefault
  next => cases h

/-- A resolved slot's fields are of their widths (R24). -/
theorem resolveSlot_fits {p : Config.Params} (hp : p.wf = true) {id unused : Nat} (hid : id < 2 ^ p.widths.lineIdBits)
    (hunused : unused < 2 ^ p.widths.adcBits) :
    (resolveSlot p id unused).id < 2 ^ p.widths.lineIdBits ∧ (resolveSlot p id unused).threshold < 2 ^ p.widths.adcBits := by
  rw [resolveSlot_eq]
  cases hk : platformKind p id with
  | digitalLine => exact ⟨hid, hunused⟩
  | thresholdAnalogLine threshold => exact ⟨hid, platformKind_threshold_lt hp hk⟩

/-- A resolved slot holds what the platform says of its identifier (R82). -/
theorem resolveSlot_resolved (p : Config.Params) (id unused : Nat) :
    (resolveSlot p id unused).kind = capabilityKind (platformKind p (resolveSlot p id unused).id)
      ∧ ∀ threshold, platformKind p (resolveSlot p id unused).id = .thresholdAnalogLine threshold →
        (resolveSlot p id unused).threshold = threshold := by
  refine ⟨rfl, fun threshold h => ?_⟩
  change platformKind p id = _ at h
  rw [resolveSlot, h]
  rfl

/-! ### What a CONFIGURE does (R80 to R84) -/

/-- All that an accepted first CONFIGURE can do. -/
theorem exec_accepted_configure {count : Nat} {s : State} (lines : Vector Nat 8) (invert : BitVec 1)
    (hs : s.constructed = false) (hcount : count < 8) :
    exec (.configure count lines invert) s =
      .next { s with
        constructed := true
        count := storedCount count
        invert := invert
        line := Vector.ofFn fun i : Fin 8 =>
          if i.val < count then
            resolveSlot s.params lines[i] (unusedThreshold (storeConfiguration count invert (beginOperation s)) i)
          else s.line[i]
        written := Vector.ofFn fun i : Fin 8 => decide (i.val < count) || s.written[i]
        configurations := s.configurations + 1
        rsp := some (responseWord 0 s.err)
        trace := (lines.toList.take count).map fun id => .setup id (capabilityKind (platformKind s.params id)) } := by
  rw [exec_configure_of_accepted lines invert hs hcount, setUpLines_spec count lines _ hcount]
  rfl

/-- All that a rejected first CONFIGURE can do. -/
theorem exec_rejected_configure {count : Nat} {s : State} (lines : Vector Nat 8) (invert : BitVec 1)
    (hs : s.constructed = false) (hcount : 8 ≤ count) :
    exec (.configure count lines invert) s =
      .next { s with constructed := true, err := true, rsp := some 0x100, trace := [] } := by
  have hword : responseWord 0 true = 0x100 := by decide
  rw [exec_configure_of_rejected lines invert hs hcount, ← hword]
  rfl

/-- Settles O20: what an accepted one stores, its slots as the platform resolves them; and what a rejected one does. -/
theorem firstConfigureStoresOrLatches : Obligations.FirstConfigureStoresOrLatches := by
  intro count lines invert s hs
  refine ⟨fun hcount => ?_, exec_rejected_configure lines invert hs⟩
  refine ⟨storedCount count, unusedThreshold (storeConfiguration count invert (beginOperation s)),
    storedCount_toNat hcount, unusedThreshold_lt _, ?_⟩
  rw [exec_accepted_configure lines invert hs hcount]
  simp only [resolveSlot_eq] <;> rfl

/-- The set-ups look at the identifiers of the slots they set up and at no others. -/
theorem setUpLoop_congr {lines lines' : Vector Nat 8} :
    ∀ {is : List (Fin 8)}, (∀ i ∈ is, lines'[i] = lines[i]) → setUpLoop lines' is = setUpLoop lines is
  | [], _ => rfl
  | i :: is, h => by
    obtain ⟨hi, his⟩ := List.forall_mem_cons.mp h
    funext s
    rw [setUpLoop, setUpLoop, hi, setUpLoop_congr his]

/-- Settles O22: only the set-ups look at the identifiers, and only at those below an accepted count. -/
theorem unusedLineOperandsAreIgnored : Obligations.UnusedLineOperandsAreIgnored := by
  intro count lines lines' invert s hlines
  refine ⟨_, exec_eq_apply_effectOf _ s, ?_⟩
  rw [← exec_eq_apply_effectOf]
  cases hs : s.constructed with
  | true => rw [exec_configure_of_constructed lines' invert count hs, exec_configure_of_constructed lines invert count hs]
  | false =>
    rcases Nat.lt_or_ge count 8 with hcount | hcount
    · have hsame : setUpLines count lines' = setUpLines count lines :=
        setUpLoop_congr fun i hi => hlines hcount i ((mem_slotsBelow count i).mp hi)
      rw [exec_configure_of_accepted lines' invert hs hcount, exec_configure_of_accepted lines invert hs hcount, hsame]
    · rw [exec_rejected_configure lines' invert hs hcount, exec_rejected_configure lines invert hs hcount]

/-! ### The configuration and the phases (R35, R130) -/

/-- Responding without more, or after a sampling procedure, leaves the configuration. -/
theorem Effect.sameConfiguration_answer (v : Value) (s : State) : SameConfiguration s ((Effect.answer v).apply s) :=
  ⟨rfl, rfl, rfl, rfl, rfl, rfl, rfl⟩

theorem Effect.sameConfiguration_reads (v : Value) (s : State) : SameConfiguration s ((Effect.reads v).apply s) :=
  ⟨rfl, rfl, rfl, rfl, rfl, rfl, rfl⟩

/-- Every operation but the first CONFIGURE keeps the configuration. -/
theorem exec_sameConfiguration {i : Instr} {s : State}
    (h : s.constructed = true ∨ ∀ count lines invert, i ≠ .configure count lines invert) :
    ∃ t, exec i s = .next t ∧ SameConfiguration s t := by
  rcases effectOf_cases i s with ⟨v, hv⟩ | ⟨-, v, hv⟩ | ⟨hs, count, lines, invert, hi, -⟩
  · exact ⟨_, hv ▸ exec_eq_apply_effectOf i s, Effect.sameConfiguration_answer v s⟩
  · exact ⟨_, hv ▸ exec_eq_apply_effectOf i s, Effect.sameConfiguration_reads v s⟩
  · rcases h with hconstructed | hother
    · rw [hs] at hconstructed; cases hconstructed
    · exact absurd hi (hother count lines invert)

theorem sameConfiguration_takeEvent (s : State) : SameConfiguration s (takeEvent s) :=
  ⟨rfl, rfl, rfl, rfl, rfl, rfl, rfl⟩

theorem sameConfiguration_idle (s : State) : SameConfiguration s (idle s) :=
  ⟨rfl, rfl, rfl, rfl, rfl, rfl, rfl⟩

/-- Settles O15: an idle step changes outputs only, and no operation changes a constructed configuration. -/
theorem constructedConfigurationIsImmutable : Obligations.ConstructedConfigurationIsImmutable := by
  intro s t hs hrst hstep
  rcases step_cases hstep with ⟨-, rfl⟩ | ⟨w, rest, -, hexec⟩ | ⟨rest, hhost, -⟩
  · exact sameConfiguration_idle s
  · obtain ⟨u, hu, hconfig⟩ := exec_sameConfiguration (s := takeEvent s) (.inl hs)
    rw [hu] at hexec
    cases hexec
    exact (sameConfiguration_takeEvent s).trans hconfig
  · exact absurd hhost (hrst rest)

theorem SameConfiguration.phase_eq {s t : State} (h : SameConfiguration s t) : phase t = phase s := by
  obtain ⟨hconstructed, herr, -⟩ := h
  rw [phase, phase, hconstructed, herr]

theorem phase_eq_unconstructed_iff (s : State) :
    phase s = some .unconstructed ↔ s.constructed = false ∧ s.err = false := by
  unfold phase
  cases s.constructed <;> cases s.err <;> decide

theorem exec_keeps_phase {i : Instr} {s : State}
    (h : s.constructed = true ∨ ∀ count lines invert, i ≠ .configure count lines invert) :
    ∃ t, exec i s = .next t ∧ phase t = phase s := by
  obtain ⟨t, ht, hconfig⟩ := exec_sameConfiguration h
  exact ⟨t, ht, hconfig.phase_eq⟩

/-- Settles O16: whatever is not the first CONFIGURE keeps the configuration, and with it the phase. -/
theorem operationsMoveBetweenPhasesAsTabled : Obligations.OperationsMoveBetweenPhasesAsTabled := by
  intro i s
  refine ⟨fun hs => exec_keeps_phase (.inl hs), fun hphase => ?_⟩
  cases i with
  | configure count lines invert =>
    obtain ⟨hs, herr⟩ := (phase_eq_unconstructed_iff s).mp hphase
    rcases Nat.lt_or_ge count 8 with hcount | hcount
    · refine ⟨_, exec_accepted_configure lines invert hs hcount, ?_⟩
      simp [phase, herr, hcount.not_ge]
    · refine ⟨_, exec_rejected_configure lines invert hs hcount, ?_⟩
      simp [phase, hcount]
  | sample => exact hphase ▸ exec_keeps_phase (.inr nofun)
  | tobinary gray bw => exact hphase ▸ exec_keeps_phase (.inr nofun)
  | getvalue => exact hphase ▸ exec_keeps_phase (.inr nofun)

/-! ### The invariant along every step (R24, R35) -/

/-- Reset clears what the invariant speaks of, whatever was there (R33). -/
theorem assertRst_blockInv {s : State} (hp : s.params.wf = true) : BlockInv (assertRst s) where
  count_legal := Nat.zero_le _
  err_constructed := nofun
  unconstructed_clear _ := ⟨rfl, rfl, rfl⟩
  read_slots_written _ h := absurd h (Nat.not_lt_zero _)
  other_slots_unwritten i _ := by simp
  written_slots_resolved i h := by simp at h
  slots_fit i := by simp [LineSlot.atReset]
  params_wf := hp

/-- Settles O13: the state after reset is what a reset makes of itself. -/
theorem invariantHoldsAfterReset : Obligations.InvariantHoldsAfterReset :=
  assertRst_blockInv (s := State.reset) (by decide)

/-- A rejected first CONFIGURE keeps the invariant: nothing was configured, so `err` comes with a count of 0. -/
theorem rejected_configure_blockInv {s : State} (hinv : BlockInv s) (hs : s.constructed = false) (r : Option RspWord)
    (tr : List LineTxn) : BlockInv { s with constructed := true, err := true, rsp := r, trace := tr } := by
  obtain ⟨-, hcount, -⟩ := hinv.unconstructed_clear hs
  exact { hinv with err_constructed := fun _ => ⟨rfl, hcount⟩, unconstructed_clear := nofun }

/-- An accepted first CONFIGURE keeps the invariant: just the slots below its count are written, and they are resolved. -/
theorem accepted_configure_blockInv {count : Nat} {s t : State} {lines : Vector Nat 8} {invert : BitVec 1}
    (hinv : BlockInv s) (hs : s.constructed = false) (hcount : count < 8)
    (hwf : (Instr.configure count lines invert).wf s.params.widths = true)
    (ht : exec (.configure count lines invert) s = .next t) : BlockInv t := by
  obtain ⟨herr, hzero, -⟩ := hinv.unconstructed_clear hs
  obtain ⟨-, hids⟩ := (wf_configure_iff _ _ _ _).mp hwf
  have hunwritten (k : Fin 8) : s.written[k] = false := hinv.other_slots_unwritten k (by simp [hzero])
  rw [exec_accepted_configure lines invert hs hcount] at ht
  cases ht
  constructor
  case count_legal => exact Nat.le_of_lt_succ (storedCount count).isLt
  case err_constructed => exact fun h => absurd (h.symm.trans herr) (by decide)
  case unconstructed_clear => exact nofun
  case read_slots_written =>
    intro k hk
    rw [storedCount_toNat hcount] at hk
    simp [hk]
  case other_slots_unwritten =>
    intro k hk
    rw [storedCount_toNat hcount] at hk
    simpa [hk.not_gt] using hunwritten k
  case written_slots_resolved =>
    intro k hk
    have hlt : k.val < count := by simpa [show s.written[k.val] = false from hunwritten k] using hk
    simp only [Fin.getElem_fin, Vector.getElem_ofFn, hlt, if_true]
    exact resolveSlot_resolved _ _ _
  case slots_fit =>
    intro k
    simp only [Fin.getElem_fin, Vector.getElem_ofFn]
    split
    · exact resolveSlot_fits hinv.params_wf (hids k) (unusedThreshold_lt _ _)
    · exact hinv.slots_fit k
  case params_wf => exact hinv.params_wf

/-- A well-formed operation keeps the invariant. -/
theorem exec_blockInv {i : Instr} {s t : State} (hinv : BlockInv s) (hwf : i.wf s.params.widths = true)
    (ht : exec i s = .next t) : BlockInv t := by
  by_cases h : s.constructed = true ∨ ∀ count lines invert, i ≠ .configure count lines invert
  · obtain ⟨u, hu, hconfig⟩ := exec_sameConfiguration h
    rw [hu] at ht
    cases ht
    exact hconfig.blockInv hinv
  · push Not at h
    obtain ⟨hs, count, lines, invert, rfl⟩ := h
    rcases Nat.lt_or_ge count 8 with hcount | hcount
    · exact accepted_configure_blockInv hinv (Bool.eq_false_of_not_eq_true hs) hcount hwf ht
    · rw [exec_rejected_configure lines invert (Bool.eq_false_of_not_eq_true hs) hcount] at ht
      cases ht
      exact rejected_configure_blockInv hinv (Bool.eq_false_of_not_eq_true hs) _ _

/-- Settles O14: an idle step keeps the configuration, a decoded operation is well formed, and reset clears. -/
theorem everyStepKeepsTheInvariant : Obligations.EveryStepKeepsTheInvariant := by
  intro s t hinv hstep
  rcases step_cases hstep with ⟨-, rfl⟩ | ⟨w, -, -, hexec⟩ | ⟨-, -, rfl⟩
  · exact (sameConfiguration_idle s).blockInv hinv
  · exact exec_blockInv ((sameConfiguration_takeEvent s).blockInv hinv)
      (decodedOperationsAreWellFormed s.params.widths w) hexec
  · exact assertRst_blockInv hinv.params_wf

/-! ### The error state (R125, R126) -/

/-- In the error state every operation responds, and nothing else. -/
theorem exec_of_error {s : State} (hs : s.constructed = true) (herr : s.err = true) (i : Instr) :
    ∃ v, exec i s = .next (respond v (beginOperation s))
      ∧ (i = .getvalue → v = s.params.sentinel) ∧ ∀ gray bw, i = .tobinary gray bw → v = toBinary gray := by
  cases i with
  | configure count lines invert => exact ⟨0, exec_configure_of_constructed lines invert count hs, nofun, nofun⟩
  | sample => exact ⟨0, if_pos herr, nofun, nofun⟩
  | tobinary gray bw => exact ⟨_, exec_tobinary gray bw s, nofun, fun _ _ h => by cases h; rfl⟩
  | getvalue => exact ⟨_, if_pos herr, fun _ => rfl, nofun⟩

/-- In the error state a step on a request keeps the configuration, touches no line and answers with `err = 1`. -/
theorem step_of_error {s : State} {w : Nat} {rest : List HostEvent} (hs : s.constructed = true) (herr : s.err = true)
    (hhost : s.host = .request w :: rest) :
    ∃ t v, step s = .next t ∧ SameConfiguration s t ∧ t.host = rest ∧ t.trace = [] ∧ t.rsp = some (responseWord v true)
      ∧ (decodeRequest s.params.widths w = .getvalue → v = s.params.sentinel)
      ∧ ∀ gray bw, decodeRequest s.params.widths w = .tobinary gray bw → v = toBinary gray := by
  obtain ⟨v, hv, hgetvalue, htobinary⟩ :=
    exec_of_error (s := { s with host := rest }) hs herr (decodeRequest s.params.widths w)
  refine ⟨_, v, (step_of_request hhost).trans hv, ⟨rfl, rfl, rfl, rfl, rfl, rfl, rfl⟩, rfl, rfl, ?_, hgetvalue, htobinary⟩
  rw [respond_rsp, beginOperation_err, herr]

/-- One more step is performed at the end of a run. -/
theorem runSteps_succ_of_next : ∀ {n : Nat} {s u : State}, runSteps n s = .next u → runSteps (n + 1) s = step u
  | 0, s, u, h => by
    cases h
    rw [runSteps]
    cases step s <;> rfl
  | n + 1, s, u, h => by
    rw [runSteps] at h ⊢
    cases hstep : step s with
    | next t => rw [hstep] at h; exact runSteps_succ_of_next h
    | fault r => rw [hstep] at h; cases h
    | refused r => rw [hstep] at h; cases h

/-- Among the first requests of a host that only makes requests, each is a request. -/
theorem OnlyRequests.getElem {n : Nat} {events : List HostEvent} (h : OnlyRequests (events.take (n + 1)))
    (hn : n < events.length) : ∃ w, events[n] = .request w := by
  refine h _ ?_
  rw [← List.take_append_getElem hn]
  exact List.mem_append_right _ (List.mem_singleton_self _)

/-- Settles O17, by induction on the number of requests: the last one finds the configuration of the first. -/
theorem errorStateLatches : Obligations.ErrorStateLatches := by
  intro n s hs herr
  induction n with
  | zero => exact fun _ _ => ⟨s, rfl, sameConfiguration_refl s, rfl, nofun⟩
  | succ n ih =>
    intro hn honly
    obtain ⟨u, hu, hconfig, hhost, -⟩ :=
      ih (Nat.le_of_succ_le hn) fun e he => honly e (List.take_subset_take_left _ (Nat.le_succ n) he)
    obtain ⟨w, hw⟩ := honly.getElem hn
    have hnext : u.host = .request w :: s.host.drop (n + 1) := by
      rw [hhost, List.drop_eq_getElem_cons hn, hw]
    have ⟨hconstructed, herru, _, _, _, _, hparams⟩ := hconfig
    obtain ⟨t, v, ht, hstep, htail, htrace, hrsp, hgetvalue, htobinary⟩ :=
      step_of_error (hconstructed.trans hs) (herru.trans herr) hnext
    refine ⟨t, (runSteps_succ_of_next hu).trans ht, hconfig.trans hstep, htail, ?_⟩
    intro m w' hm hw'
    cases hm
    rw [List.getElem?_eq_getElem hn, hw] at hw'
    cases hw'
    rw [hparams] at hgetvalue htobinary
    exact ⟨htrace, v, hrsp, hgetvalue, htobinary⟩

/-- A block in the error state touches no line, however long the host makes requests. -/
theorem runTrace_of_error : ∀ (n : Nat) {s : State}, s.constructed = true → s.err = true → OnlyRequests s.host →
    runTrace n s = []
  | 0, _, _, _, _ => rfl
  | n + 1, s, hs, herr, honly => by
    cases hhost : s.host with
    | nil => exact runTrace_idle (n + 1) s hhost
    | cons e rest =>
      rw [hhost] at honly
      obtain ⟨⟨w, rfl⟩, hrest⟩ := List.forall_mem_cons.mp honly
      obtain ⟨t, v, ht, ⟨hconstructed, herrt, -⟩, htail, htrace, -⟩ := step_of_error hs herr hhost
      simp only [runTrace, ht, htrace, List.nil_append]
      exact runTrace_of_error n (hconstructed.trans hs) (herrt.trans herr) (htail ▸ hrest)

/-- Settles O18: the rejected CONFIGURE issues nothing and leaves the error state. -/
theorem misconfiguredBlockNeverTouchesALine : Obligations.MisconfiguredBlockNeverTouchesALine := by
  intro n s count lines invert rest hs hcount hwf hhost honly
  cases n with
  | zero => rfl
  | succ n =>
    have hrejected := exec_rejected_configure (s := { s with host := rest }) lines invert hs hcount
    rw [runTrace, step_of_request hhost, decodeRequest_encode _ hwf, hrejected]
    exact runTrace_of_error n rfl rfl honly

end Sys2Proof.Machine
end

section
/-! SUPPORT. The raw sample's bits and its size, what SAMPLE answers, and the settling of the statements on them
(R86 to R92, R151). -/

namespace Sys2Proof.Machine

/-! ### The bits of the raw sample (R87 to R90) -/

/-- R89: an analog slot compares the reading with its threshold. -/
theorem slotActive_analog_iff {slot : LineSlot} (hkind : slot.kind = .thresholdAnalogLine) (a : LineAnswer) :
    slotActive slot a = true ↔ slot.threshold < a.analog := by
  simp [slotActive, hkind, analogActive]

section
variable {s : State} {raw : Value} (hraw : IsRawSample s raw)
include hraw

theorem IsRawSample.getLsbD_eq_true_iff (i : Fin 8) :
    raw.getLsbD i.val = true ↔ i.val < s.count.toNat ∧ slotActive s.line[i] (answerAt s i.val) = true := by
  rw [hraw i, Bool.and_eq_true, decide_eq_true_iff]

/-- The bit of a slot that is not configured is 0. -/
theorem IsRawSample.getLsbD_of_unconfigured {i : Fin 8} (hi : s.count.toNat ≤ i.val) : raw.getLsbD i.val = false := by
  rw [hraw i, decide_eq_false hi.not_gt, Bool.false_and]

/-- R90 (2): no bit at the count or above is set. -/
theorem IsRawSample.toNat_lt : raw.toNat < 2 ^ s.count.toNat := by
  refine Nat.lt_pow_two_of_testBit _ fun j hj => ?_
  rcases Nat.lt_or_ge j 8 with h8 | h8
  · exact hraw.getLsbD_of_unconfigured (i := ⟨j, h8⟩) hj
  · exact BitVec.getLsbD_of_ge raw j h8

/-- While every line holds still, a bit depends on the slot alone. -/
theorem IsRawSample.getLsbD_of_still {level : Nat → LineAnswer} {i : Fin 8} (hi : i.val < s.count.toNat)
    (hstill : ∀ k : Fin 8, k.val < s.count.toNat → answerAt s k.val = level s.line[k].id) :
    raw.getLsbD i.val = slotActive s.line[i] (level s.line[i].id) := by
  rw [hraw.getLsbD_of_configured hi, hstill i hi]

end

/-- What is below two to the count is at most 127: the count has three bits. -/
theorem le_127_of_lt_two_pow_count {s : State} {v : Nat} (h : v < 2 ^ s.count.toNat) : v ≤ 127 := by
  have hle : 2 ^ s.count.toNat ≤ 2 ^ 7 := Nat.pow_le_pow_right (by decide) (Nat.le_of_lt_succ (count_lt s))
  omega

/-- Settles O25: the sampling procedure of SAMPLE, slot by slot in the slot's two kinds. -/
theorem sampleReadsEveryConfiguredLineInOrder : Obligations.SampleReadsEveryConfiguredLineInOrder := by
  intro s herr
  obtain ⟨raw, hraw, hexec⟩ := exec_sample_of_err_false herr
  refine ⟨raw, fun i => ?_, hexec⟩
  rw [hraw.getLsbD_eq_true_iff i]
  cases hkind : s.line[i].kind with
  | digitalLine => rw [slotActive_digital_iff hkind]
  | thresholdAnalogLine => rw [slotActive_analog_iff hkind]

/-- Settles O27: the bit of an analog slot is its comparison; a reading of ten bits is at most 1023. -/
theorem analogLineIsActiveAboveItsThreshold : Obligations.AnalogLineIsActiveAboveItsThreshold := by
  intro s i herr hi hkind
  obtain ⟨raw, hraw, hexec⟩ := exec_sample_of_err_false herr
  have hbit : raw.getLsbD i.val = true ↔ s.line[i].threshold < (answerAt s i.val).analog := by
    rw [hraw.getLsbD_of_configured hi, slotActive_analog_iff hkind]
  refine ⟨_, raw, hexec, rfl, hbit, fun hthreshold hwidth => ?_⟩
  have hreading := answerAt_analog_lt s i.val
  rw [hwidth] at hreading
  rw [hthreshold] at hbit
  rw [← Bool.not_eq_true, hbit]
  omega

/-- Settles O29: bits at the count and above are 0, and the count is at most 7. -/
theorem rawSampleIsBelowTwoToTheCount : Obligations.RawSampleIsBelowTwoToTheCount := by
  intro s herr
  obtain ⟨raw, hraw, hexec⟩ := exec_sample_of_err_false herr
  exact ⟨_, raw, hexec, rfl, hraw.toNat_lt, hraw.getLsbD_of_unconfigured (i := 7) (Nat.le_of_lt_succ (count_lt s)),
    le_127_of_lt_two_pow_count hraw.toNat_lt⟩

/-- Settles O30: the `err` test comes before the sampling procedure. -/
theorem sampleInErrorStateTouchesNoLine : Obligations.SampleInErrorStateTouchesNoLine := by
  intro s herr
  rw [exec_eq_apply_effectOf, effectOf, if_pos herr, ← herr]
  rfl

/-- Swapping two slots of a table, slot by slot. -/
theorem getElem_swap_slots (v : Vector LineSlot 8) (i j k : Fin 8) :
    ((v.set i v[j]).set j v[i])[k] = if k = i then v[j] else if k = j then v[i] else v[k] := by
  simp only [Fin.getElem_fin, Vector.getElem_set, Fin.ext_iff, eq_comm (a := k.val)]
  split_ifs <;> simp_all

/-- Settles O31: while every line holds still the bits go with the slots. -/
theorem swappingTwoLinesSwapsTheirBits : Obligations.SwappingTwoLinesSwapsTheirBits := by
  intro s s' i j level herr herr' hcount hi hj hline hstill hstill'
  obtain ⟨raw, hraw, hexec⟩ := exec_sample_of_err_false herr
  obtain ⟨raw', hraw', hexec'⟩ := exec_sample_of_err_false herr'
  rw [← hcount] at hstill'
  have hbit {k l : Fin 8} (hk : k.val < s.count.toNat) (hl : l.val < s.count.toNat) (hslot : s'.line[k] = s.line[l]) :
      raw'.getLsbD k.val = raw.getLsbD l.val := by
    rw [hraw'.getLsbD_of_still (hcount ▸ hk) hstill', hraw.getLsbD_of_still hl hstill, hslot]
  refine ⟨_, _, raw, raw', hexec, hexec', rfl, rfl, hbit hi hj ?_, hbit hj hi ?_, fun k hki hkj => ?_⟩
  · rw [hline, getElem_swap_slots]; simp
  · rw [hline, getElem_swap_slots]; simp +contextual
  · rcases Nat.lt_or_ge k.val s.count.toNat with hk | hk
    · refine hbit hk hk ?_
      rw [hline, getElem_swap_slots, if_neg hki, if_neg hkj]
    · rw [hraw.getLsbD_of_unconfigured hk, hraw'.getLsbD_of_unconfigured (hcount ▸ hk)]

end Sys2Proof.Machine
end

section
/-! SUPPORT. The conversion loop: how many passes it makes, its closed form, the size of its result, Gray codes of adjacent
positions; and the settling of the statements on them (R101 to R108, R157). -/

namespace Sys2Proof.Machine

/-! ### The loop's passes (R101, R105) -/

theorem toNat_shiftRight_one (m : Value) : (m >>> 1).toNat = m.toNat / 2 := by
  rw [BitVec.toNat_ushiftRight, Nat.shiftRight_eq_div_pow, Nat.pow_one]

theorem shiftRight_one_lt {k : Nat} {m : Value} (h : m.toNat < 2 ^ (k + 1)) : (m >>> 1).toNat < 2 ^ k := by
  rw [toNat_shiftRight_one]
  omega

/-- One pass more for each bit position up to the highest set one. -/
theorem toBinaryPasses_of_highest_bit : ∀ {k n : Nat} {m : Value}, k + 1 ≤ n → 2 ^ k ≤ m.toNat → m.toNat < 2 ^ (k + 1) →
    toBinaryPasses n m = k + 1
  | k, 0, m, hn, _, _ => absurd hn (Nat.not_succ_le_zero k)
  | k, n + 1, m, hn, hlow, hhigh => by
    have hm : m ≠ 0 := by
      rintro rfl
      exact absurd hlow (Nat.two_pow_pos k).not_ge
    rw [toBinaryPasses, if_neg hm, Nat.add_right_cancel_iff]
    cases k with
    | zero =>
      have hzero : m >>> 1 = 0 := BitVec.eq_of_toNat_eq (by rw [toNat_shiftRight_one]; simp; omega)
      rw [hzero]
      cases n <;> rfl
    | succ k =>
      refine toBinaryPasses_of_highest_bit (Nat.le_of_succ_le_succ hn) ?_ (shiftRight_one_lt hhigh)
      rw [toNat_shiftRight_one]
      omega

theorem toBinaryLoop_zero_mask (n : Nat) (num : Value) : toBinaryLoop n num 0#8 = num := by
  cases n <;> rfl

/-- A pass with an empty mask would change nothing, so the test for it can be left out. -/
theorem toBinaryLoop_succ (n : Nat) (num mask : Value) :
    toBinaryLoop (n + 1) num mask = toBinaryLoop n (num ^^^ (mask >>> 1)) (mask >>> 1) := by
  rw [toBinaryLoop]
  split_ifs with hmask
  · subst hmask
    simp [toBinaryLoop_zero_mask]
  · rfl

/-- A bound on the passes that is large enough for the mask does not matter. -/
theorem toBinaryLoop_of_le : ∀ {m n : Nat} {num mask : Value}, mask.toNat < 2 ^ m → m ≤ n →
    toBinaryLoop n num mask = toBinaryLoop m num mask
  | 0, n, num, mask, hmask, _ => by
    have hzero : mask = 0#8 := BitVec.eq_of_toNat_eq (Nat.lt_one_iff.mp hmask)
    rw [hzero, toBinaryLoop_zero_mask, toBinaryLoop_zero_mask]
  | m + 1, 0, _, _, _, hn => absurd hn (Nat.not_succ_le_zero m)
  | m + 1, n + 1, num, mask, hmask, hn => by
    rw [toBinaryLoop_succ, toBinaryLoop_succ,
      toBinaryLoop_of_le (shiftRight_one_lt hmask) (Nat.le_of_succ_le_succ hn)]

/-- Settles O34: the passes follow the highest bit, and `k + 1` passes are as good as any more. -/
theorem conversionLoopStopsAfterTheHighestBit : Obligations.ConversionLoopStopsAfterTheHighestBit := by
  intro gray k n hn
  refine ⟨fun ⟨hlow, hhigh⟩ => ⟨toBinaryPasses_of_highest_bit hn hlow hhigh, ?_⟩, ?_⟩
  · have hk : k < 8 := (Nat.pow_lt_pow_iff_right (by decide)).mp (hlow.trans_lt gray.isLt)
    rw [toBinary, toBinaryLoop_of_le hhigh hn, toBinaryLoop_of_le hhigh hk]
  · rintro rfl
    refine ⟨?_, toBinary_zero⟩
    cases n <;> rfl

/-! ### The closed form (R102) -/

/-- The loop unrolled, its mask shifted once more in every pass. -/
theorem toBinary_closed_form (g : Value) :
    toBinary g = g ^^^ (g >>> 1) ^^^ (g >>> 2) ^^^ (g >>> 3) ^^^ (g >>> 4) ^^^ (g >>> 5) ^^^ (g >>> 6) ^^^ (g >>> 7) := by
  have hlast : g >>> 8 = 0 := BitVec.ushiftRight_eq_zero (Nat.le_refl 8)
  simp only [toBinary, Config.maxBits, toBinaryLoop_succ, ← BitVec.shiftRight_add, Nat.reduceAdd, hlast]
  simp [toBinaryLoop]

/-- A bit of the conversion is the bit above it with the Gray code's own bit added: so `toGray` undoes it. -/
theorem toBinary_getLsbD (g : Value) (j : Nat) :
    (toBinary g).getLsbD j = ((toBinary g).getLsbD (j + 1) ^^ g.getLsbD j) := by
  have hbit := toGray_getLsbD (toBinary g) j
  rw [toGray_toBinary] at hbit
  rw [hbit, Bool.xor_comm ((toBinary g).getLsbD j), ← Bool.xor_assoc, Bool.xor_self, Bool.false_xor]

/-- Settles O35: there is no bit above bit 7. -/
theorem conversionClosedForm : Obligations.ConversionClosedForm := by
  intro g
  refine ⟨toBinary_closed_form g, ?_, fun j => toBinary_getLsbD g j.val⟩
  rw [toBinary_getLsbD, BitVec.getLsbD_of_ge (toBinary g) 8 (Nat.le_refl 8), Bool.false_xor]

/-! ### The size of a conversion (R104, R113) -/

theorem toGray_lt {b : Value} {m : Nat} (h : b.toNat < 2 ^ m) : (toGray b).toNat < 2 ^ m := by
  rw [toGray, BitVec.toNat_xor, toNat_shiftRight_one]
  exact Nat.xor_lt_two_pow h ((Nat.div_le_self _ _).trans_lt h)

theorem toBinaryLoop_lt {m : Nat} : ∀ {n : Nat} {num mask : Value}, num.toNat < 2 ^ m → mask.toNat < 2 ^ m →
    (toBinaryLoop n num mask).toNat < 2 ^ m
  | 0, _, _, hnum, _ => hnum
  | n + 1, num, mask, hnum, hmask => by
    have hshift : (mask >>> 1).toNat < 2 ^ m := by
      rw [toNat_shiftRight_one]
      exact (Nat.div_le_self _ _).trans_lt hmask
    rw [toBinaryLoop_succ]
    exact toBinaryLoop_lt (by rw [BitVec.toNat_xor]; exact Nat.xor_lt_two_pow hnum hshift) hshift

theorem toBinary_lt {g : Value} {m : Nat} (h : g.toNat < 2 ^ m) : (toBinary g).toNat < 2 ^ m :=
  toBinaryLoop_lt h h

/-- Settles O36: were the result below `2^k`, so would be its Gray code, which is the input. -/
theorem conversionKeepsTheHighestBit : Obligations.ConversionKeepsTheHighestBit := by
  intro g k hlow hhigh
  refine ⟨?_, toBinary_lt hhigh⟩
  by_contra hlt
  have hback := toGray_lt (not_le.mp hlt)
  rw [toGray_toBinary] at hback
  exact hlow.not_gt hback

/-- Settles O39: the model's law on the two conversions. -/
theorem grayOfBinaryIsIdentity : Obligations.GrayOfBinaryIsIdentity :=
  toGray_toBinary

/-! ### Adjacent positions (R108, R148) -/

theorem toGray_xor (a b : Value) : toGray a ^^^ toGray b = toGray (a ^^^ b) := by
  apply BitVec.eq_of_getLsbD_eq
  intro j _
  simp only [BitVec.getLsbD_xor, toGray_getLsbD]
  cases a.getLsbD j <;> cases b.getLsbD j <;> simp

/-- Counting on flips the ones at the low end and the 0 above them; after 255 it flips all. -/
theorem xor_succ_eq_lowOnes (p : Value) : ∃ k : Fin 8, p ^^^ (p + 1) = lowOnes k.val := by
  revert p
  decide

/-- Settles O40: the Gray code of the bits that counting on flips is a single bit. -/
theorem successivePositionsDifferInOneBit : Obligations.SuccessivePositionsDifferInOneBit := by
  intro p
  obtain ⟨k, hk⟩ := xor_succ_eq_lowOnes p
  exact ⟨k, by rw [toGray_xor, hk, toGray_lowOnes k.isLt]⟩

/-- On a wheel of `2^n` positions, moving on flips ones at the low end, or nothing if there is one position only. -/
theorem xor_next_position {n : Nat} (hn : n < 8) {p q : Value} (hp : p.toNat < 2 ^ n)
    (hq : q.toNat = (p.toNat + 1) % 2 ^ n) : p = q ∨ ∃ k : Fin 8, p ^^^ q = lowOnes k.val := by
  rcases Nat.lt_or_eq_of_le (Nat.succ_le_of_lt hp) with hnext | hlast
  · have hsucc : q = p + 1 := by
      have hfits : p.toNat + 1 < 2 ^ 8 := hnext.trans (Nat.pow_lt_pow_right (by decide) hn)
      refine BitVec.eq_of_toNat_eq ?_
      rw [hq, Nat.mod_eq_of_lt hnext, BitVec.toNat_add]
      exact (Nat.mod_eq_of_lt hfits).symm
    exact .inr (hsucc ▸ xor_succ_eq_lowOnes p)
  · rw [show p.toNat + 1 = 2 ^ n from hlast, Nat.mod_self] at hq
    have hzero : q = 0 := BitVec.eq_of_toNat_eq hq
    cases n with
    | zero => exact .inl (BitVec.eq_of_toNat_eq ((Nat.lt_one_iff.mp hp).trans hq.symm))
    | succ m =>
      refine .inr ⟨⟨m, Nat.lt_of_succ_lt hn⟩, BitVec.eq_of_toNat_eq ?_⟩
      rw [hzero, lowOnes_toNat (Nat.lt_of_succ_lt hn), ← hlast]
      simp

/-- So the Gray codes of the two positions differ in one bit at most. -/
theorem toGray_next_position {n : Nat} (hn : n < 8) {p q : Value} (hp : p.toNat < 2 ^ n)
    (hq : q.toNat = (p.toNat + 1) % 2 ^ n) :
    ∃ k : Fin 8, ∀ j, j ≠ k.val → (toGray p).getLsbD j = (toGray q).getLsbD j := by
  rcases xor_next_position hn hp hq with rfl | ⟨k, hk⟩
  · exact ⟨0, fun _ _ => rfl⟩
  · refine ⟨k, fun j hj => ?_⟩
    have hxor : (toGray p ^^^ toGray q).getLsbD j = false := by
      rw [toGray_xor, hk, toGray_lowOnes k.isLt, ← BitVec.twoPow_eq, BitVec.getLsbD_twoPow, decide_eq_false hj.symm,
        Bool.and_false]
    simpa [BitVec.getLsbD_xor] using hxor

end Sys2Proof.Machine
end

section
/-! SUPPORT. What GETVALUE answers, from any state and after a CONFIGURE, and the settling of the statements on it
(R111 to R116, R148, R150). -/

namespace Sys2Proof.Machine

/-! ### The two cases of GETVALUE (R111, R112) -/

theorem exec_getvalue_of_err {s : State} (herr : s.err = true) :
    exec .getvalue s = .next { s with rsp := some (responseWord s.params.sentinel true), trace := [] } := by
  rw [exec_eq_apply_effectOf, effectOf, if_pos herr, ← herr]
  rfl

/-- All that GETVALUE can do when `err = 0`: respond with its raw sample converted, after one read per configured line. -/
theorem exec_getvalue_of_isRawSample {s : State} {raw : Value} (hraw : IsRawSample s raw) (herr : s.err = false) :
    exec .getvalue s =
      .next { afterReads s with rsp := some (responseWord (toBinary raw) false), trace := samplingTrace s } := by
  rw [exec_eq_apply_effectOf, effectOf, if_neg (by simp [herr]), ← hraw.eq_rawSample, ← herr]
  rfl

/-- Settles O41: the two cases, and the raw sample that every state has. -/
theorem getvalueAnswersTheSentinelOrTheConvertedSample : Obligations.GetvalueAnswersTheSentinelOrTheConvertedSample :=
  ⟨rfl, fun s => ⟨exec_getvalue_of_err, fun herr =>
    ⟨rawSample s, isRawSample_rawSample s, exec_getvalue_of_isRawSample (isRawSample_rawSample s) herr⟩⟩⟩

/-- Settles O42: the raw sample is below two to the count, and conversion keeps it there. -/
theorem getvalueIsBelowTwoToTheCount : Obligations.GetvalueIsBelowTwoToTheCount := by
  intro s herr
  have hraw := isRawSample_rawSample s
  exact ⟨_, _, exec_getvalue_of_isRawSample hraw herr, rfl, toBinary_lt hraw.toNat_lt,
    le_127_of_lt_two_pow_count (toBinary_lt hraw.toNat_lt)⟩

/-- With a count of 0 there is nothing to read (R92). -/
theorem reads_of_count_zero {s : State} (h : s.count = 0) :
    IsRawSample s 0 ∧ samplingTrace s = [] ∧ afterReads s = s := by
  have hnone : s.count.toNat = 0 := by rw [h]; rfl
  refine ⟨fun i => by simp [hnone], by simp [samplingTrace, hnone], ?_⟩
  rw [afterReads, hnone]
  rfl

/-- Settles O32: before any CONFIGURE the count is 0, so both read nothing; and the conversion of 0 is 0. -/
theorem operationsBeforeConfigureTouchNoLine : Obligations.OperationsBeforeConfigureTouchNoLine := by
  intro s hinv hs
  obtain ⟨herr, hcount, -⟩ := hinv.unconstructed_clear hs
  obtain ⟨hraw, htrace, hafter⟩ := reads_of_count_zero hcount
  refine ⟨?_, ?_⟩
  · obtain ⟨raw, hraw', hexec⟩ := exec_sample_of_err_false herr
    rw [hexec, isRawSample_unique hraw' hraw, htrace, hafter]
  · rw [exec_getvalue_of_isRawSample hraw herr, toBinary_zero, htrace, hafter]

/-! ### Which values there are (R113, R150) -/

/-- A value is the raw sample if its bits below the count are the activities and none other is set. -/
theorem isRawSample_of_lt {s : State} {v : Value} (hv : v.toNat < 2 ^ s.count.toNat)
    (h : ∀ i : Fin 8, i.val < s.count.toNat → slotActive s.line[i] (answerAt s i.val) = v.getLsbD i.val) :
    IsRawSample s v := by
  intro i
  rcases Nat.lt_or_ge i.val s.count.toNat with hi | hi
  · rw [decide_eq_true hi, Bool.true_and, h i hi]
  · rw [decide_eq_false hi.not_gt, Bool.false_and]
    exact Nat.testBit_lt_two_pow (hv.trans_le (Nat.pow_le_pow_right (by decide) hi))

/-- An answer that makes a line active, or inactive, whatever its kind: high and full scale, or low and 0. -/
def answerOf (c : Config.Widths) (active : Bool) : LineAnswer :=
  if active then ⟨1, 2 ^ c.adcBits - 1⟩ else ⟨0, 0⟩

/-- Unless a full-scale threshold keeps an analog line inactive (R89), the line is as it is told to be. -/
theorem slotActive_answerOf {slot : LineSlot} {c : Config.Widths}
    (h : slot.kind = .thresholdAnalogLine → slot.threshold < 2 ^ c.adcBits - 1) (active : Bool) :
    slotActive slot (onWires c (answerOf c active)) = active := by
  have hscale : (2 ^ c.adcBits - 1) % 2 ^ c.adcBits = 2 ^ c.adcBits - 1 :=
    Nat.mod_eq_of_lt (Nat.sub_lt (Nat.two_pow_pos _) Nat.one_pos)
  unfold slotActive
  cases hkind : slot.kind with
  | digitalLine => cases active <;> rfl
  | thresholdAnalogLine =>
    cases active with
    | false => simp [answerOf, onWires, analogActive]
    | true => simp [answerOf, onWires, analogActive, hscale, h hkind]

/-- The answers that make just the lines active whose bits of `g` are set. -/
def answersOf (c : Config.Widths) (g : Value) : List LineAnswer :=
  List.ofFn fun i : Fin 8 => answerOf c (g.getLsbD i.val)

theorem answerAt_answersOf (s : State) (g : Value) (i : Fin 8) :
    answerAt { s with answers := answersOf s.params.widths g } i.val
      = onWires s.params.widths (answerOf s.params.widths (g.getLsbD i.val)) := by
  have hlisted : (answersOf s.params.widths g)[i.val]? = some (answerOf s.params.widths (g.getLsbD i.val)) := by
    rw [answersOf, List.getElem?_ofFn, dif_pos i.isLt]
  rw [answerAt, hlisted]

/-- Bits that are each from one of two values, which differ in bit `k` at most, are all from the value that gives bit `k`. -/
theorem bits_of_one_of_two {n : Nat} {f : Fin 8 → Bool} {a b : Value} {k : Fin 8}
    (hab : ∀ j, j ≠ k.val → a.getLsbD j = b.getLsbD j)
    (h : ∀ i : Fin 8, i.val < n → f i = a.getLsbD i.val ∨ f i = b.getLsbD i.val) :
    (∀ i : Fin 8, i.val < n → f i = a.getLsbD i.val) ∨ ∀ i : Fin 8, i.val < n → f i = b.getLsbD i.val := by
  by_cases hk : f k = b.getLsbD k.val
  · refine .inr fun i hi => ?_
    by_cases hik : i = k
    · rw [hik, hk]
    · exact (h i hi).elim (fun ha => ha.trans (hab i.val (Fin.val_ne_of_ne hik))) id
  · refine .inl fun i hi => ?_
    by_cases hik : i = k
    · exact (h i hi).resolve_right (hik ▸ hk)
    · exact (h i hi).elim id fun hb => hb.trans (hab i.val (Fin.val_ne_of_ne hik)).symm

/-- If the lines show the Gray code of a position, GETVALUE answers the position. -/
theorem exec_getvalue_of_gray {s : State} {x : Value} (herr : s.err = false) (hx : x.toNat < 2 ^ s.count.toNat)
    (hactive : ∀ i : Fin 8, i.val < s.count.toNat → slotActive s.line[i] (answerAt s i.val) = (toGray x).getLsbD i.val) :
    ∃ t, exec .getvalue s = .next t ∧ t.rsp = some (responseWord x false) := by
  refine ⟨_, exec_getvalue_of_isRawSample (isRawSample_of_lt (toGray_lt hx) hactive) herr, ?_⟩
  rw [toBinary_toGray]

/-- Settles O43: the answers that spell the value's Gray code, which is below two to the count as well. -/
theorem everyValueBelowTwoToTheCountIsReachable : Obligations.EveryValueBelowTwoToTheCountIsReachable := by
  intro s v herr hthreshold hv
  refine ⟨answersOf s.params.widths (toGray v),
    exec_getvalue_of_gray (s := { s with answers := answersOf s.params.widths (toGray v) }) herr hv fun i hi => ?_⟩
  rw [answerAt_answersOf, slotActive_answerOf (hthreshold i hi)]

/-- Settles O45: the Gray codes of the two positions differ in one bit at most, so the lines show one of the codes. -/
theorem movingWheelReadsOneOfTwoAdjacentPositions : Obligations.MovingWheelReadsOneOfTwoAdjacentPositions := by
  intro s p q herr hp hq hbits
  have hqlt : q.toNat < 2 ^ s.count.toNat := hq ▸ Nat.mod_lt _ (Nat.two_pow_pos _)
  obtain ⟨k, hk⟩ := toGray_next_position (count_lt s) hp hq
  rcases bits_of_one_of_two hk hbits with hactive | hactive
  · obtain ⟨t, ht, hrsp⟩ := exec_getvalue_of_gray herr hp hactive
    exact ⟨t, ht, .inl hrsp⟩
  · obtain ⟨t, ht, hrsp⟩ := exec_getvalue_of_gray herr hqlt hactive
    exact ⟨t, ht, .inr hrsp⟩

/-! ### Two value requests (R115) -/

/-- Once constructed, no sequence of operations changes the configuration. -/
theorem execAll_sameConfiguration : ∀ {is : List Instr} {s t : State}, s.constructed = true → execAll is s = .next t →
    SameConfiguration s t
  | [], s, t, _, h => by
    cases h
    exact sameConfiguration_refl s
  | i :: is, s, t, hs, h => by
    obtain ⟨u, hu, hconfig⟩ := exec_sameConfiguration (i := i) (.inl hs)
    rw [execAll, hu] at h
    exact hconfig.trans (execAll_sameConfiguration (hconfig.1.trans hs) h)

/-- GETVALUE's response and trace depend on the error flag, the sentinel and the sampling procedure. -/
theorem exec_getvalue_congr {s t : State} (herr : t.err = s.err) (hsentinel : t.params.sentinel = s.params.sentinel)
    (hreads : ReadsAlike s t) :
    ∃ u v, exec .getvalue s = .next u ∧ exec .getvalue t = .next v ∧ v.rsp = u.rsp ∧ v.trace = u.trace := by
  cases hs : s.err with
  | true =>
    refine ⟨_, _, exec_getvalue_of_err hs, exec_getvalue_of_err (herr.trans hs), ?_, rfl⟩
    rw [hsentinel]
  | false =>
    refine ⟨_, _, exec_getvalue_of_isRawSample (isRawSample_rawSample s) hs,
      exec_getvalue_of_isRawSample (isRawSample_rawSample t) (herr.trans hs), ?_, hreads.samplingTrace_eq⟩
    rw [hreads.rawSample_eq]

/-- Settles O44: what comes between leaves the configuration, and the answers are the same by assumption. -/
theorem getvalueIsIdempotent : Obligations.GetvalueIsIdempotent := by
  intro between s t hs hbetween hanswers
  obtain ⟨-, herr, hcount, -, hline, -, hparams⟩ := execAll_sameConfiguration hs hbetween
  refine exec_getvalue_congr herr (by rw [hparams]) ⟨hcount, fun k hk => ⟨?_, hanswers k.val hk⟩⟩
  rw [hline]
  exact SameToReads.refl _

/-! ### CONFIGURE and then GETVALUE (00_scope.md section 6) -/

/-- An active slot of a resolved identifier (R82, R88, R89). -/
theorem slotActive_resolveSlot (p : Config.Params) (id unused : Nat) (a : LineAnswer) :
    slotActive (resolveSlot p id unused) a = true ↔
      match platformKind p id with
      | .digitalLine => a.digital = 1
      | .thresholdAnalogLine threshold => threshold < a.analog := by
  rw [resolveSlot_eq]
  cases platformKind p id with
  | digitalLine => exact slotActive_digital_iff rfl a
  | thresholdAnalogLine threshold => exact slotActive_analog_iff rfl a

/-- The read of a resolved identifier (R43, R44). -/
theorem slotRead_resolveSlot (p : Config.Params) (id unused : Nat) (a : LineAnswer) :
    slotRead (resolveSlot p id unused) a =
      match platformKind p id with
      | .digitalLine => .readDigital id a.digital
      | .thresholdAnalogLine _ => .readAnalog id a.analog := by
  rw [resolveSlot_eq]
  cases platformKind p id <;> rfl

/-- The slots a count names hold the listed identifiers as the platform resolves them, and the lines hold still for the
coming reads. -/
def ReadsListed (p : Config.Params) (count : Nat) (lines : Vector Nat 8) (level : Nat → LineAnswer) (s : State) : Prop :=
  s.count.toNat = count ∧ ∀ i : Fin 8, i.val < count →
    (∃ unused, s.line[i] = resolveSlot p lines[i] unused) ∧ answerAt s i.val = level lines[i]

/-- The first slots in order are the first entries of the list. -/
theorem map_take_finRange {β : Type} (lines : Vector Nat 8) (f : Nat → β) (n : Nat) :
    ((List.finRange 8).take n).map (fun i => f lines[i]) = (lines.toList.take n).map f := by
  have hlist : lines.toList = (List.finRange 8).map fun i => lines[i] := by apply List.ext_getElem <;> simp
  rw [hlist, ← List.map_take, List.map_map]
  rfl

section
variable {p : Config.Params} {count : Nat} {lines : Vector Nat 8} {level : Nat → LineAnswer} {s : State}
  (h : ReadsListed p count lines level s)
include h

theorem ReadsListed.getLsbD_rawSample_iff (i : Fin 8) :
    (rawSample s).getLsbD i.val = true ↔ i.val < count ∧
      match platformKind p lines[i] with
      | .digitalLine => (level lines[i]).digital = 1
      | .thresholdAnalogLine threshold => threshold < (level lines[i]).analog := by
  obtain ⟨hcount, hslots⟩ := h
  rw [(isRawSample_rawSample s).getLsbD_eq_true_iff i, hcount]
  refine and_congr_right fun hi => ?_
  obtain ⟨⟨unused, hline⟩, hanswer⟩ := hslots i hi
  rw [hline, hanswer]
  exact slotActive_resolveSlot p lines[i] unused _

theorem ReadsListed.samplingTrace_eq :
    samplingTrace s = (lines.toList.take count).map fun id =>
      match platformKind p id with
      | .digitalLine => .readDigital id (level id).digital
      | .thresholdAnalogLine _ => .readAnalog id (level id).analog := by
  obtain ⟨hcount, hslots⟩ := h
  rw [samplingTrace, hcount, ← map_take_finRange lines]
  refine List.map_congr_left fun i hi => ?_
  obtain ⟨⟨unused, hline⟩, hanswer⟩ :=
    hslots i ((mem_take_finRange (hcount ▸ (count_lt s).le) i).mp hi)
  rw [hline, hanswer]
  exact slotRead_resolveSlot p lines[i] unused _

end

/-- An accepted first CONFIGURE makes the listed lines what the next reads find, and leaves the answers to come. -/
theorem exec_accepted_configure_readsListed {count : Nat} {s : State} (lines : Vector Nat 8) (invert : BitVec 1)
    {level : Nat → LineAnswer} (hs : s.constructed = false) (hcount : count < 8)
    (hstill : ∀ k : Fin 8, k.val < count → answerAt s k.val = level lines[k]) :
    ∃ t, exec (.configure count lines invert) s = .next t ∧ t.host = s.host ∧ t.params = s.params ∧ t.err = s.err
      ∧ ReadsListed s.params count lines level t := by
  refine ⟨_, exec_accepted_configure lines invert hs hcount, rfl, rfl, rfl, storedCount_toNat hcount, fun i hi => ?_⟩
  refine ⟨?_, hstill i hi⟩
  simp only [Fin.getElem_fin, Vector.getElem_ofFn, hi, if_true]
  exact ⟨_, rfl⟩

/-- Settles O46: the CONFIGURE resolves the listed lines, and the GETVALUE reads them as they hold still. -/
theorem configureThenGetvalueReadsTheConfiguredLines : Obligations.ConfigureThenGetvalueReadsTheConfiguredLines := by
  intro s count lines invert rest level hs herr hcount hwf hhost hstill
  obtain ⟨t, ht, htail, hparams, herrt, hlisted⟩ := exec_accepted_configure_readsListed
    (s := { s with host := .request (encode s.params.widths .getvalue) :: rest }) lines invert hs hcount hstill
  have hfirst : runSteps 1 s = .next t := by
    rw [runSteps_succ_of_next (n := 0) rfl, step_of_request hhost, decodeRequest_encode _ hwf, ht]
  have hdecode : decodeRequest t.params.widths (encode s.params.widths .getvalue) = .getvalue := by
    rw [hparams]
    exact decodeRequest_encode _ rfl
  have hgetvalue := exec_getvalue_of_isRawSample (isRawSample_rawSample { t with host := rest }) (herrt.trans herr)
  rw [← hdecode, ← step_of_request htail, ← runSteps_succ_of_next hfirst] at hgetvalue
  have hreads : ReadsListed s.params count lines level { t with host := rest } := hlisted
  exact ⟨_, _, hgetvalue, rfl, rfl, hreads.getLsbD_rawSample_iff, hreads.samplingTrace_eq⟩

end Sys2Proof.Machine
end
